-- ==== Sys2Proof/Word.lean ====
section
/-! DEFINITION. The value types of the block: raw 16.16 values of 32 bits, the 64-bit wires inside an operation,
the 65-bit request word and the 35-bit response word (spec/00_scope.md R4, R8; spec/30_encoding.md R43, R46). -/

namespace Sys2Proof

/-- A raw 16.16 value: a 32-bit two's-complement pattern; the real number it stands for is `toInt / 65536` (R4). -/
abbrev Word := BitVec 32

/-- A 64-bit signed intermediate (R25, R53 to R61). -/
abbrev Wide := BitVec 64

/-- A request word: `op` at bit 64, `a` at 63:32, `b` at 31:0 (R43). -/
abbrev RequestWord := BitVec 65

/-- A response word: `fault_cause` at 34:33, `fault` at 32, `result` at 31:0 (R46). -/
abbrev ResponseWord := BitVec 35

/-- `INT32_MIN` = -2^31 (R8). -/
abbrev int32Min : Int := -2147483648

/-- `INT32_MAX` = 2^31 - 1 (R8). -/
abbrev int32Max : Int := 2147483647

/-- The pattern of `INT32_MIN` (R8). -/
abbrev minWord : Word := 0x80000000#32

/-- The pattern of `INT32_MAX` (R8). -/
abbrev maxWord : Word := 0x7FFFFFFF#32

end Sys2Proof
end

