-- ==== Sys2Proof/Syntax.lean ====
section
/-! DEFINITION. The instructions: one constructor per row of spec/opcode_table.json. An instruction of this hardware is
a request (spec/30_encoding.md R43, R44). -/

namespace Sys2Proof

/-- A request to the block. -/
inductive Instr where
  /-- `FXMUL a, b`: 16.16 fixed-point multiply (R63). -/
  | fxmul (a b : Word)
  /-- `FXDIV a, b`: 16.16 fixed-point divide, `a` the dividend and `b` the divisor (R68). -/
  | fxdiv (a b : Word)
  deriving DecidableEq, Repr

end Sys2Proof
end

