-- ==== Sys2Proof/WellFormed.lean ====
section
/-! DEFINITION. What is well formed: an integer that is a raw value (spec/00_scope.md R4; spec/30_encoding.md R50,
R51), a number that is a request word (R43), and an instruction, which always is (R16, R48). -/

namespace Sys2Proof

/-- `n` is in `[INT32_MIN, INT32_MAX]`, so some raw value stands for it (R4, R50, R51). -/
def fitsRaw (n : Int) : Bool := decide (int32Min ≤ n) && decide (n ≤ int32Max)

/-- `n` is one of the 2^65 request words (R43, R48). -/
def fitsRequest (n : Nat) : Bool := decide (n < 2 ^ 65)

/-- Each operand of the request is a raw value (R16, R45). Every 32-bit pattern is one, so no request is ill formed
(R48): `Laws.WellFormed.instr_wellFormed`. -/
def Instr.wellFormed : Instr → Bool
  | .fxmul a b => fitsRaw a.toInt && fitsRaw b.toInt
  | .fxdiv a b => fitsRaw a.toInt && fitsRaw b.toInt

end Sys2Proof
end

