-- ==== Sys2Proof/Decode.lean ====
section
/-! DEFINITION. The request decoder and encoder (spec/30_encoding.md R43 to R49). The decoder is total on 65-bit words
(R48) and refuses, by name, a number that is no 65-bit word. -/

namespace Sys2Proof

/-- Why a number is not read as a request. -/
inductive DecodeRefusal where
  /-- The number has a bit above bit 64; a request is one 65-bit word (R43, R49). -/
  | widerThanRequestWord
  deriving DecidableEq, Repr

/-- The select bit, bit 64 (R43). -/
def requestOp (w : RequestWord) : BitVec 1 := w.extractLsb' 64 1

/-- The first operand, bits 63:32, taken as it stands (R43, R45). -/
def requestA (w : RequestWord) : Word := w.extractLsb' 32 32

/-- The second operand, bits 31:0, taken as it stands (R43, R45). -/
def requestB (w : RequestWord) : Word := w.extractLsb' 0 32

/-- The request of a word. The decoder looks at `op` alone: 0 is FXMUL, 1 is FXDIV (R44). -/
def decode (w : RequestWord) : Instr :=
  if requestOp w = 0#1 then .fxmul (requestA w) (requestB w) else .fxdiv (requestA w) (requestB w)

/-- The request of a number: its word when it has 65 bits or fewer (R43, R49). -/
def decodeNat (n : Nat) : Except DecodeRefusal Instr :=
  if fitsRequest n then .ok (decode (BitVec.ofNat 65 n)) else .error .widerThanRequestWord

/-- Lay out the three fields of a request word (R43). -/
def requestWord (op : BitVec 1) (a b : Word) : RequestWord := op ++ a ++ b

/-- The word of a request (R43, R44). -/
def encode : Instr → RequestWord
  | .fxmul a b => requestWord 0#1 a b
  | .fxdiv a b => requestWord 1#1 a b

/-- The request the decoder reads from an instruction whose bits are `w`, bit 0 the least significant bit of the word;
bits from `nbits` on are 0. -/
def decodeTableWord (nbits w : Nat) : Option Instr :=
  match decodeNat (w % 2 ^ nbits) with
  | .ok i => some i
  | .error _ => none

end Sys2Proof
end

