-- ==== Sys2Proof/Config.lean ====
section
/-! DEFINITION. What a build of the block fixes (spec/00_scope.md R7) and the free values of the model: what the spec
calls unspecified or any value. A free value is an opaque constant, so no proof can see what it is. -/

namespace Sys2Proof

/-- The parameter `DIV_ABS_MODE`: the width in which the divide guard takes absolute values (R7, R58, D6). -/
inductive DivAbsMode where
  /-- The mathematical absolute value: that of `INT32_MIN` is 2^31. -/
  | exact
  /-- The 32-bit reading: that of `INT32_MIN` is `INT32_MIN`. -/
  | wrap32
  deriving DecidableEq, Repr

/-- `DIV_ABS_MODE` of this hardware is `EXACT` (R7, D6). -/
def Config.divAbsMode : DivAbsMode := .exact

/-- DESIGN CHOICE (unsafe for a claim about `State.reset` alone): the spec leaves `LATENCY` OPEN (R7, D11), and
`State.reset` needs one; 1 is the least with a clock, a reset and the valid signals. Every statement of the model is for
every `LATENCY`. Log 2. -/
def Config.resetLatency : Nat := 1

/-- Free value: what the output bits show where the spec calls them unspecified: outputs while
`out_valid = 0`, `result` in a fault response, a response read while the inputs change (R29, R31, R101; D9, D12, D13).
Applied to the counter `State.tick`. Safe. Logs 4, 5, 7. -/
opaque Config.freeWord : Nat → ResponseWord

/-- Free value: the valid bit of an in-flight slot in a cycle before the first reset, applied to the counter
`State.tick` and to the slot's number (R31, R94, D13). Safe. Log 6. -/
opaque Config.powerUpValid : Nat → Nat → Bool

/-- Free value: the response word an in-flight slot holds in a cycle before the first reset, applied as `powerUpValid` is
(R31, R94, D13). Safe. Log 6. -/
opaque Config.powerUpWord : Nat → Nat → ResponseWord

end Sys2Proof
end

