-- ==== Sys2Proof/Machine/State.lean ====
section
/-! DEFINITION. The state of the block, its signals and what the host has been given (spec/10_state.md R20 to R31;
spec/70_reset_and_hazards.md R92 to R101), and the reasons a step or a host-side function can stop. -/

namespace Sys2Proof.Machine

/-- The input signals of spec/10_state.md R27 that a host drives. -/
inductive Signal where
  | op | a | b | rst | inValid
  deriving DecidableEq, Repr

/-- Why the machine stops. -/
inductive Fault where
  /-- Raised by a step (`Pins.event`) that samples an input signal with a bit that is not a defined 0 or 1. The block
  gives no meaning to an undefined input (R94, D22; spec/93_implementation_defined.md: stuck). Safe: the model stops
  where a built block would go on in some way. Log 8. -/
  | undefinedInput (signal : Signal)
  deriving DecidableEq, Repr

/-- Why a function has no meaning to give. No step of this model refuses. -/
inductive Refusal where
  /-- For an arm of `exec` without a meaning; no arm is left so. Safe. -/
  | notModelled (mnemonic : String)
  /-- Raised by `decodeResponse`: the response word has the reserved cause 11, which the block never drives (R47, R48,
  D25; spec/93_implementation_defined.md: refuse). Safe. -/
  | reservedCause
  /-- Raised by `decodeResponse`: the word's `fault` bit and its `fault_cause` disagree (R29, R47), so the block cannot
  have driven it. DEDUCED. Safe. Log 14. -/
  | faultBitDisagrees
  /-- Raised by `fromFloat`: the operand is an infinity or a NaN (R17, D20). Safe. -/
  | notFinite
  /-- Raised by `fromFloat`: the scaled operand is outside `[INT32_MIN, INT32_MAX]` (R17, D20). Safe. -/
  | outsideRawRange
  deriving DecidableEq, Repr

/-- The two causes of ArithmeticFault, the block's one exception (R79). -/
inductive Cause where
  /-- The computed quotient is outside the 32-bit range (R73). -/
  | rangeOverflow
  /-- The division step is reached with a zero divisor (R74, R82). -/
  | zeroDivisor
  deriving DecidableEq, Repr

/-- The response to one request: a result, or a fault with its cause and NO value (R29, R80, D9). Log 4. -/
inductive Response where
  | value (result : Word)
  | fault (cause : Cause)
  deriving DecidableEq, Repr

/-- What an in-flight slot holds, and what a host is given. -/
inductive Reply where
  /-- The response to a request (R28). -/
  | answer (request : Instr) (response : Response)
  /-- What a slot holds before the first reset: a word the spec calls unspecified, answering no request (R31). -/
  | leftover (word : ResponseWord)
  /-- What a host reads while the inputs change, `LATENCY = 0`: a word the spec does not specify (R101). -/
  | unsteady (word : ResponseWord)
  deriving DecidableEq, Repr

/-- Whether the host reads the response in this step; matters when `LATENCY = 0` only, where the block has no `in_valid`
(R27) and a request is issued by presenting it and reading its response (R99, R101). Logs 1, 7. -/
inductive HostRead where
  /-- The host issues no request and reads nothing. -/
  | noRead
  /-- The host holds the inputs stable while it reads. -/
  | steady
  /-- The host reads while the inputs change. -/
  | changing
  deriving DecidableEq, Repr

/-- The input signals of R27 as the host drives them for one edge (`LATENCY > 0`) or one moment (`LATENCY = 0`). `none`:
some bit of the signal is not a defined 0 or 1 (R94). `rst` and `inValid` are present when `LATENCY > 0`. -/
structure Pins where
  rst     : Option Bool
  inValid : Option Bool
  op      : Option (BitVec 1)
  a       : Option Word
  b       : Option Word
  read    : HostRead
  deriving DecidableEq, Repr

/-- What one step is asked to do. -/
inductive Event where
  /-- A rising edge with `rst = 1` (R92). -/
  | reset
  /-- A rising edge with `rst = 0` and `in_valid = 0` (R28), or, `LATENCY = 0`, a moment without a read: no request. -/
  | idle
  /-- A request is taken (R28). -/
  | request (i : Instr)
  /-- `LATENCY = 0`: the response is read while the inputs change (R101). -/
  | unsteadyRead
  deriving DecidableEq, Repr

/-- The machine in the cycle that ends at the coming rising edge (`LATENCY > 0`), or at the coming moment (`LATENCY = 0`).
`LATENCY` is the length of `inflight`. -/
structure State where
  /-- `DIV_ABS_MODE`, fixed when the block is built (R7, R98). -/
  divAbsMode : DivAbsMode
  /-- The `LATENCY` in-flight slots, the youngest first; `none` is a clear valid bit. The last slot is on the outputs
  (R30, R97). Log 3. -/
  inflight   : List (Option Reply)
  /-- The input signals at the coming edge (R27). -/
  pins       : Pins
  /-- What the host drives at the edges after that (R22, R99). Log 9. -/
  script     : List Pins
  /-- What the host has been given, oldest first (R86, R99). Log 11. -/
  received   : List Reply
  /-- The requests that are in flight no more and got no response, oldest first: those a reset discarded (R92, R100), and
  those presented before the first reset (R31). Logs 6, 11. -/
  discarded  : List Instr
  /-- No rising edge with `rst = 1` has come since power-up (R31, R94). Matters when `LATENCY > 0` only. Log 6. -/
  awaitsReset : Bool
  /-- The model's own step counter; only the free values of Config are applied to it. Log 12. -/
  tick       : Nat
  deriving DecidableEq, Repr

/-- The host drives no request and no reset. DESIGN CHOICE for the signals' values, which no rule gives. Log 10. -/
def Pins.resting : Pins :=
  { rst := some false, inValid := some false, op := some 0#1, a := some 0#32, b := some 0#32, read := .noRead }

/-- The block right after reset, for any `DIV_ABS_MODE` and `LATENCY`: nothing in flight (R31, R92, R93). -/
def State.resetWith (mode : DivAbsMode) (latency : Nat) : State :=
  { divAbsMode := mode, inflight := List.replicate latency none, pins := Pins.resting, script := [],
    received := [], discarded := [], awaitsReset := false, tick := 0 }

/-- The block right after reset: `DIV_ABS_MODE` of this hardware, and the `LATENCY` of log 2. -/
def State.reset : State := State.resetWith Config.divAbsMode Config.resetLatency

end Sys2Proof.Machine
end

