-- ==== Sys2Proof/Machine/Operands.lean ====
section
/-! DEFINITION. The operand forms and what a step samples from the input signals: width conversions and absolute
values (spec/00_scope.md R9, R10; spec/41_datapath_units.md R58), the request on the pins (spec/30_encoding.md R43;
spec/70_reset_and_hazards.md R94), and what the coming edge or read is (spec/10_state.md R28; R92, R101). -/

namespace Sys2Proof.Machine

/-- `sext_64(v)`: the same signed value in 64 bits (R9). -/
def sext64 (v : Word) : Wide := v.signExtend 64

/-- `s32(v)`: the value congruent to `v` modulo 2^32, as a raw value (R9). -/
def s32 (v : Int) : Word := BitVec.ofInt 32 v

/-- `asr(v, k) = floor(v / 2^k)` on integers (R10). -/
def asr (v : Int) (k : Nat) : Int := Int.fdiv v (2 ^ k)

/-- `abs_exact(v) = |v|` (R10). -/
def absExact (v : Word) : Int := (v.toInt.natAbs : Int)

/-- `abs_wrap32(v) = s32(|v|)` (R10). -/
def absWrap32 (v : Word) : Int := (s32 (v.toInt.natAbs : Int)).toInt

/-- `A(v)`, the absolute value the guard takes, by `DIV_ABS_MODE` (R58, D6). -/
def guardAbs (mode : DivAbsMode) (v : Word) : Int :=
  match mode with
  | .exact => absExact v
  | .wrap32 => absWrap32 v

/-- `xor32(x, y)`, read as a signed value (R10). -/
def xor32 (x y : Word) : Int := (x ^^^ y).toInt

/-- The request on the signals `op`, `a`, `b`; every bit of it must be defined (R27, R43, R94). Log 8. -/
def Pins.request (p : Pins) : Except Fault Instr :=
  match p.op, p.a, p.b with
  | some op, some a, some b => .ok (decode (requestWord op a b))
  | none, _, _ => .error (.undefinedInput .op)
  | _, none, _ => .error (.undefinedInput .a)
  | _, _, none => .error (.undefinedInput .b)

/-- What a moment of a combinational block is: `LATENCY = 0` (R27, R101). A host that issues no request has no duty to
drive defined bits (R94). Logs 1, 8. -/
def Pins.readEvent (p : Pins) : Except Fault Event :=
  match p.read with
  | .noRead => .ok .idle
  | .steady => p.request.map .request
  | .changing => p.request.map fun _ => .unsteadyRead

/-- What a rising edge is: `LATENCY > 0`. `rst` and `in_valid` must be defined at every edge, and `op`, `a`, `b`
whenever `in_valid = 1` (R94); with `rst = 1` no request is accepted even if `in_valid = 1` (R92). Log 8. -/
def Pins.edgeEvent (p : Pins) : Except Fault Event :=
  match p.rst, p.inValid with
  | none, _ => .error (.undefinedInput .rst)
  | _, none => .error (.undefinedInput .inValid)
  | some true, some false => .ok .reset
  | some false, some false => .ok .idle
  | some rst, some true =>
    match p.request with
    | .error f => .error f
    | .ok i => if rst then .ok .reset else .ok (.request i)

/-- `LATENCY` (R7, R30): the number of in-flight slots. -/
def State.latency (s : State) : Nat := s.inflight.length

/-- What a step with these signals is asked to do (R27, R28). -/
def Pins.event (latency : Nat) (p : Pins) : Except Fault Event :=
  if latency = 0 then p.readEvent else p.edgeEvent

/-- What the coming step is asked to do (R27, R28). -/
def State.event (s : State) : Except Fault Event := s.pins.event s.latency

/-- The signals of a host that presents the request of a word (R28, R43). -/
def Pins.ofRequestWord (w : RequestWord) : Pins :=
  { rst := some false, inValid := some true, op := some (requestOp w), a := some (requestA w), b := some (requestB w),
    read := .steady }

/-- The host drives no further request and no reset, and reads nothing; its other signals stay where they are. Log 9. -/
def Pins.rest (p : Pins) : Pins := { p with rst := some false, inValid := some false, read := .noRead }

end Sys2Proof.Machine
end

