-- ==== Sys2Proof/Machine/Ops.lean ====
section
/-! DEFINITION. The datapath units of spec/41_datapath_units.md (R53 to R61) and the named operations over the in-flight
slots: accepting a request, taking ArithmeticFault, the reset edge and the passage to the next cycle
(spec/10_state.md R28, R30; spec/60_exceptions.md R79 to R87; spec/70_reset_and_hazards.md R92 to R97). -/

namespace Sys2Proof.Machine

/-! ### Datapath units -/

/-- `widen_mul`: the 64-bit signed product (R53). -/
def widenMul (a b : Word) : Wide := sext64 a * sext64 b

/-- `asr16`: shift right by 16, filling with the sign bit (R54). -/
def asr16 (p : Wide) : Wide := p.sshiftRight 16

/-- `narrow_wrap`: the low 32 bits, no check (R55). -/
def narrowWrap (y : Wide) : Word := y.extractLsb' 0 32

/-- `sat_select`: `INT32_MIN` when the operands' sign bits differ, else `INT32_MAX` (R56). -/
def satSelect (a b : Word) : Word := if xor32 a b < 0 then minWord else maxWord

/-- `narrow_checked`: the value when it fits 32 bits, else RANGE_OVERFLOW (R57). -/
def narrowChecked (c : Wide) : Except Cause Word :=
  if c.toInt < int32Min ∨ c.toInt > int32Max then .error .rangeOverflow else .ok (c.extractLsb' 0 32)

/-- `guard`: `asr(A(a), 14) >= A(b)` (R59, D7). -/
def guardTrips (mode : DivAbsMode) (a b : Word) : Bool := decide (asr (guardAbs mode a) 14 ≥ guardAbs mode b)

/-- `scale16`: the dividend moved up by 16 bits (R60). -/
def scale16 (a : Word) : Wide := sext64 a <<< 16

/-- `tdiv`: the quotient rounded toward zero; ZERO_DIVISOR for a zero divisor (R61, D8). -/
def tdiv (n d : Wide) : Except Cause Wide := if d = 0#64 then .error .zeroDivisor else .ok (n.sdiv d)

/-! ### The in-flight slots -/

/-- One edge without reset: the reply on the outputs is delivered, the slots move on by one, and `entering` takes the
first (R28, R96, R97). With no slots (`LATENCY = 0`) what enters is delivered at once (R27). -/
def State.advance (entering : Option Reply) (s : State) : State :=
  { s with
    inflight := (entering :: s.inflight).dropLast
    received := s.received ++ (s.inflight.getLastD entering).toList }

/-- A request is taken and will be answered with `r` (R28, R96). -/
def State.answer (i : Instr) (r : Response) (s : State) : State := s.advance (some (.answer i r))

/-- TAKING ArithmeticFault: the request's own response reports `fault = 1` and the cause, with no value. Nothing else
is saved, no mode changes and control goes nowhere (R79, R80, R83, R86). There is no return from it: the next request is
served as if no fault had happened (R83, R87). -/
def State.raiseArithmeticFault (i : Instr) (c : Cause) (s : State) : State := s.answer i (.fault c)

/-- The request of a slot, if it holds one. -/
def slotRequest : Option Reply → Option Instr
  | some (.answer i _) => some i
  | _ => none

/-- A rising edge with `rst = 1`: the reply on the outputs is still delivered, every other request in flight is
discarded, every valid bit is cleared, and nothing is accepted (R92). After the first such edge no signal is unspecified
for want of a reset (R31, R94). -/
def State.resetEdge (s : State) : State :=
  { s with
    inflight := List.replicate s.latency none
    received := s.received ++ (s.inflight.getLastD none).toList
    discarded := s.discarded ++ s.inflight.dropLast.reverse.filterMap slotRequest
    awaitsReset := false }

/-- The response is read while the inputs change: the host is given an unspecified word (R101). Log 7. -/
def State.readUnsteady (s : State) : State := s.advance (some (.unsteady (Config.freeWord s.tick)))

/-- The in-flight slots in a cycle before the first reset: every valid bit and every word is unspecified (R31, R94, D13).
Log 6. -/
def unspecifiedSlots (tick latency : Nat) : List (Option Reply) :=
  (List.range latency).map fun k =>
    if Config.powerUpValid tick k then some (.leftover (Config.powerUpWord tick k)) else none

/-- The block at power-up, before its first rising edge with `rst = 1` (R31, R94). Log 6. -/
def State.powerUp (mode : DivAbsMode) (latency : Nat) : State :=
  { State.resetWith mode latency with inflight := unspecifiedSlots 0 latency, awaitsReset := true }

/-- The next cycle begins: the host drives what its script says next, or no further request (R99). Before the first
reset the slots of every cycle are unspecified anew, and no request presented so early stays in flight (R31). Logs 6, 9,
12. -/
def State.nextCycle (s : State) : State :=
  { s with
    pins := s.script.headD s.pins.rest
    script := s.script.tail
    tick := s.tick + 1
    inflight := if s.awaitsReset then unspecifiedSlots (s.tick + 1) s.latency else s.inflight
    discarded :=
      if s.awaitsReset then s.discarded ++ s.inflight.reverse.filterMap slotRequest else s.discarded }

end Sys2Proof.Machine
end

