-- ==== Sys2Proof/Machine/Divide.lean ====
section
/-! DEFINITION. FXDIV (spec/43_divide.md R68 to R78; the order of its checks, spec/60_exceptions.md R84). -/

namespace Sys2Proof.Machine

/-- The result of FXDIV, or the cause of the ArithmeticFault it raises: the guard first, then the zero divisor, then
the range check (R68, R84). -/
def divOutcome (mode : DivAbsMode) (a b : Word) : Except Cause Word :=
  if guardTrips mode a b then .ok (satSelect a b)
  else
    match tdiv (scale16 a) (sext64 b) with
    | .error cause => .error cause
    | .ok c => narrowChecked c

/-- FXDIV answers its result with `fault = 0`, or takes ArithmeticFault (R68). -/
def execFxdiv (a b : Word) (s : State) : Host.Outcome State Fault Refusal :=
  match divOutcome s.divAbsMode a b with
  | .ok r => .next (s.answer (.fxdiv a b) (.value r))
  | .error cause => .next (s.raiseArithmeticFault (.fxdiv a b) cause)

end Sys2Proof.Machine
end

