-- ==== Sys2Proof/Machine/Multiply.lean ====
section
/-! DEFINITION. FXMUL (spec/42_multiply.md R63 to R67). -/

namespace Sys2Proof.Machine

/-- The result of FXMUL: widen_mul, then asr16, then narrow_wrap (R63). -/
def mulResult (a b : Word) : Word :=
  let p := widenMul a b
  let y := asr16 p
  narrowWrap y

/-- FXMUL answers its result, with `fault = 0`, for every pair of operands (R63, R67). -/
def execFxmul (a b : Word) (s : State) : Host.Outcome State Fault Refusal :=
  .next (s.answer (.fxmul a b) (.value (mulResult a b)))

end Sys2Proof.Machine
end

