-- ==== Sys2Proof/Machine/Dispatch.lean ====
section
/-! DEFINITION. The dispatch: one arm per row of spec/opcode_table.json. -/

namespace Sys2Proof.Machine

def exec (i : Instr) (s : State) : Host.Outcome State Fault Refusal :=
  match i with
  | .fxmul a b => Sys2Proof.Machine.execFxmul a b s
  | .fxdiv a b => Sys2Proof.Machine.execFxdiv a b s

end Sys2Proof.Machine
end

