-- ==== Sys2Proof/Machine/Step.lean ====
section
/-! DEFINITION. One step: a rising edge of `clk` when `LATENCY > 0`, one moment of the host when `LATENCY = 0`
(spec/10_state.md R27, R28; spec/70_reset_and_hazards.md R92, R96, R97, R101). Log 1. -/

namespace Sys2Proof.Machine

/-- One step. A request on the inputs is executed; the other events are the shared operations of Ops.lean; after each,
the next cycle begins. -/
def step (s : State) : Host.Outcome State Fault Refusal :=
  match s.event with
  | .error f => .fault f
  | .ok .reset => .next s.resetEdge.nextCycle
  | .ok .idle => .next (s.advance none).nextCycle
  | .ok .unsteadyRead => .next s.readUnsteady.nextCycle
  | .ok (.request i) =>
    match exec i s with
    | .next t => .next t.nextCycle
    | .fault f => .fault f
    | .refused r => .refused r

/-- `s` with the host presenting the request whose bits are `w` at the coming step (R28, R43). The block fetches
nothing (R22): a request on the inputs is what this hardware runs. Log 13. -/
def State.withFetchWord (s : State) (nbits w : Nat) : State :=
  { s with pins := Pins.ofRequestWord (BitVec.ofNat 65 (w % 2 ^ nbits)) }

end Sys2Proof.Machine
end

