-- ==== Sys2Proof/Machine/Convert.lean ====
section
/-! DEFINITION. The host-side conversions between binary64 and raw values (spec/00_scope.md R5, R17, R18; D20). They
are no operations of the block. The layout of binary64 is PRESUMED from IEEE 754. Log 16. -/

namespace Sys2Proof.Machine

/-- A binary64 pattern: sign at bit 63, exponent at 62:52, fraction at 51:0. Log 16. -/
abbrev Binary64 := BitVec 64

/-- The exponent field. -/
def Binary64.exponentField (x : Binary64) : Nat := (x.extractLsb' 52 11).toNat

/-- The fraction field. -/
def Binary64.fractionField (x : Binary64) : Nat := (x.extractLsb' 0 52).toNat

/-- Neither an infinity nor a NaN. -/
def Binary64.isFinite (x : Binary64) : Bool := decide (x.exponentField ≠ 2047)

/-- The significand as an integer, with its hidden bit and its sign: a finite `x` stands for
`significand * 2^(scale - 1075)`. -/
def Binary64.significand (x : Binary64) : Int :=
  let m : Nat := if x.exponentField = 0 then x.fractionField else x.fractionField + 2 ^ 52
  if x.extractLsb' 63 1 = 1#1 then -(m : Int) else m

/-- The exponent field as it counts: the subnormals share the exponent of field 1. -/
def Binary64.scale (x : Binary64) : Nat := max x.exponentField 1

/-- The numerator of `x * 65536` over `Binary64.scaledDenominator`: `x * 65536 = significand * 2^(scale - 1059)`. -/
def Binary64.scaledNumerator (x : Binary64) : Int := x.significand * 2 ^ (x.scale - 1059)

/-- The denominator of `x * 65536`. -/
def Binary64.scaledDenominator (x : Binary64) : Int := 2 ^ (1059 - x.scale)

/-- `fromFloat(x)`: `x * 65536` rounded toward zero; refused when it is not finite or outside
`[INT32_MIN, INT32_MAX]` (R17, D20). -/
def fromFloat (x : Binary64) : Except Refusal Word :=
  if x.isFinite then
    if int32Min * x.scaledDenominator ≤ x.scaledNumerator ∧ x.scaledNumerator ≤ int32Max * x.scaledDenominator then
      .ok (BitVec.ofInt 32 (Int.tdiv x.scaledNumerator x.scaledDenominator))
    else .error .outsideRawRange
  else .error .notFinite

/-- `toFloat(v)`: the binary64 value `v / 65536`, which is exact (R18): `|v|` has its leading bit at `Nat.log2 |v|`. -/
def toFloat (v : Word) : Binary64 :=
  let n := v.toInt.natAbs
  if n = 0 then 0#64
  else
    let k := Nat.log2 n
    v.extractLsb' 31 1 ++ BitVec.ofNat 11 (k + 1007) ++ BitVec.ofNat 52 (n * 2 ^ (52 - k))

/-- The binary64 pattern nearest to `num / den` (ties to even), with the sign `negative`: how a decimal literal is
read. PRESUMED from IEEE 754; the spec shows it only through `100.1` (R17). Log 16. -/
def nearestBinary64 (negative : Bool) (num den : Nat) : Binary64 :=
  let magnitude : Nat :=
    if num = 0 then 0
    else
      let guess : Int := (Nat.log2 num : Int) - (Nat.log2 den : Int) - 52
      let low := decide ((num * 2 ^ (-guess).toNat) / (den * 2 ^ guess.toNat) < 2 ^ 52)
      let e : Int := max (if low then guess - 1 else guess) (-1074)
      let n := num * 2 ^ (-e).toNat
      let d := den * 2 ^ e.toNat
      let q := n / d
      let r := n % d
      let m := if 2 * r > d ∨ (2 * r = d ∧ q % 2 = 1) then q + 1 else q
      min ((e + 1074).toNat * 2 ^ 52 + m) (2047 * 2 ^ 52)
  (if negative then 1#1 else 0#1) ++ BitVec.ofNat 63 magnitude

end Sys2Proof.Machine
end

