-- ==== Sys2Proof/Machine/Flags.lean ====
section
/-! DEFINITION. The block's only status, the `fault` and `fault_cause` of a response (spec/10_state.md R23, R29): the
cause codes (spec/30_encoding.md R47), the response word (R46) and the output signals (R27, R31). The block has no flags
and reports neither wrap-around nor saturation (R23, D23). -/

namespace Sys2Proof.Machine

/-- The response to a request: a function of the request and `DIV_ABS_MODE` alone (R12, R20). -/
def respond (mode : DivAbsMode) : Instr → Response
  | .fxmul a b => .value (mulResult a b)
  | .fxdiv a b =>
    match divOutcome mode a b with
    | .ok r => .value r
    | .error cause => .fault cause

/-- The code of a cause (R47). -/
def causeCode : Cause → BitVec 2
  | .rangeOverflow => 0b01#2
  | .zeroDivisor => 0b10#2

/-- `fault_cause` of a response: NONE when there is no fault (R29, R47). -/
def Response.causeBits : Response → BitVec 2
  | .value _ => 0b00#2
  | .fault c => causeCode c

/-- `fault` of a response (R29). -/
def Response.faultBit : Response → BitVec 1
  | .value _ => 0#1
  | .fault _ => 1#1

/-- Lay out the three fields of a response word (R46). -/
def responseWord (cause : BitVec 2) (fault : BitVec 1) (result : Word) : ResponseWord := cause ++ fault ++ result

/-- The response word (R46). `unspecified` gives the bits of `result` in a fault response, which has no value (R29).
Log 4. -/
def encodeResponse (r : Response) (unspecified : Word) : ResponseWord :=
  match r with
  | .value v => responseWord r.causeBits r.faultBit v
  | .fault _ => responseWord r.causeBits r.faultBit unspecified

/-- Read a response word. The cause 11 has no meaning (R48, D25); nor has a word whose `fault` bit and cause disagree
(R29, R47). The `result` bits of a fault are not read (R29). Log 14. -/
def decodeResponse (w : ResponseWord) : Except Refusal Response :=
  let cause := w.extractLsb' 33 2
  let fault := w.extractLsb' 32 1
  if cause = 0b11#2 then .error .reservedCause
  else if fault = 0#1 then
    if cause = 0b00#2 then .ok (.value (w.extractLsb' 0 32)) else .error .faultBitDisagrees
  else if cause = 0b01#2 then .ok (.fault .rangeOverflow)
  else if cause = 0b10#2 then .ok (.fault .zeroDivisor)
  else .error .faultBitDisagrees

/-- The text a host that needs the original diagnostics prints for a cause: code 01 maps to its parameter `FAULT_TEXT`;
the source has no text for the other (R81, D10). Log 15. -/
def hostFaultText (FAULT_TEXT : String) : Cause → Option String
  | .rangeOverflow => some FAULT_TEXT
  | .zeroDivisor => none

/-! ### The output signals -/

/-- The reply on the outputs of a combinational block: the response to the current inputs, read or not (R27). The block
gives no meaning to undefined inputs (R94), nor to a read of changing ones (R101): the word is then free. Log 7. -/
def State.combinational (s : State) : Reply :=
  match s.pins.request with
  | .error _ => .unsteady (Config.freeWord s.tick)
  | .ok i =>
    if s.pins.read = .changing then .unsteady (Config.freeWord s.tick) else .answer i (respond s.divAbsMode i)

/-- The reply on the outputs in this cycle, if any: the last slot when `LATENCY > 0` (R97), and always one when
`LATENCY = 0` (R27, R96). -/
def State.output (s : State) : Option Reply := s.inflight.getLastD (some s.combinational)

/-- The word on `fault_cause`, `fault`, `result`. Where the spec leaves bits unspecified (no response present, R31; the
result of a fault, R29) they are free. Logs 4, 5. -/
def State.outputWord (s : State) : ResponseWord :=
  match s.output with
  | some (.answer _ r) => encodeResponse r ((Config.freeWord s.tick).extractLsb' 0 32)
  | some (.leftover w) => w
  | some (.unsteady w) => w
  | none => Config.freeWord s.tick

/-- A response is present: the signal `out_valid` when `LATENCY > 0`, always when `LATENCY = 0` (R27, R99). -/
def State.responsePresent (s : State) : Bool := s.output.isSome

/-- The signal `result` (R27). -/
def State.resultPin (s : State) : Word := s.outputWord.extractLsb' 0 32

/-- The signal `fault` (R27). -/
def State.faultPin (s : State) : BitVec 1 := s.outputWord.extractLsb' 32 1

/-- The signal `fault_cause` (R27). -/
def State.causePin (s : State) : BitVec 2 := s.outputWord.extractLsb' 33 2

end Sys2Proof.Machine
end

