-- ==== Sys2Proof/Machine/Assembly.lean ====
section
/-! DEFINITION. The host's programs, line by line: the assembler syntax and the pseudo-instructions
(spec/30_encoding.md R50, R51; D19), and what the host does with each response (spec/60_exceptions.md R86;
spec/70_reset_and_hazards.md R95, R99, R100; D24). None of this is part of the block; a line that is a request sends
exactly one. -/

namespace Sys2Proof.Machine

/-- An operand of a request line (R50). -/
inductive Operand where
  /-- A raw pattern `0xHHHHHHHH`. -/
  | pattern (w : Word)
  /-- A signed decimal raw value. -/
  | decimal (n : Int)
  /-- A host-held value `v<n>`. -/
  | value (v : Nat)
  deriving DecidableEq, Repr

/-- A line of a host program (R50, R51). `op` is the select bit of R44. -/
inductive HostLine where
  /-- `FXMUL a, b` or `FXDIV a, b`. -/
  | send (op : BitVec 1) (a b : Operand)
  /-- `vD = FXMUL vA, vB` or `vD = FXDIV vA, vB`. The operands may be of every kind: DESIGN CHOICE, since R50 writes this
  form with host-held values. Log 17. -/
  | bind (d : Nat) (op : BitVec 1) (a b : Operand)
  /-- `vD = FXCONST <real>`, the real read to its nearest binary64 value. -/
  | fxconst (d : Nat) (x : Binary64)
  /-- `vD = FXRAW <int>`. -/
  | fxraw (d : Nat) (n : Int)
  deriving DecidableEq, Repr

/-- Why a host program stops before its end. -/
inductive HostStop where
  /-- A decimal operand or an FXRAW integer outside `[INT32_MIN, INT32_MAX]` (R50, R51). -/
  | outsideRawRange (n : Int)
  /-- A host-held value that no line has bound (R95). -/
  | unbound (v : Nat)
  /-- `fromFloat` has no result (R17, D20). -/
  | conversion (r : Refusal)
  /-- The response was a fault: a hard failure, the run ends badly (R86, R100, D24). -/
  | arithmeticFault (c : Cause)
  deriving DecidableEq, Repr

/-- The host-held values, the latest binding first (R21): a later binding of `vD` replaces an earlier one. -/
abbrev HostValues := List (Nat × Word)

/-- The latest value bound to `v<n>`. -/
def HostValues.find (env : HostValues) (n : Nat) : Option Word := List.lookup n env

/-- A raw value given as a decimal integer, which must be in range (R50, R51). -/
def rawOfInt (n : Int) : Except HostStop Word :=
  if fitsRaw n then .ok (BitVec.ofInt 32 n) else .error (.outsideRawRange n)

/-- The raw value of an operand (R50). -/
def Operand.resolve (env : HostValues) : Operand → Except HostStop Word
  | .pattern w => .ok w
  | .decimal n => rawOfInt n
  | .value v =>
    match env.find v with
    | some w => .ok w
    | none => .error (.unbound v)

/-- The request of a line: one word with its select bit and its two operands (R43, R44, R50). -/
def requestOf (env : HostValues) (op : BitVec 1) (a b : Operand) : Except HostStop Instr :=
  match a.resolve env with
  | .error e => .error e
  | .ok x =>
    match b.resolve env with
    | .error e => .error e
    | .ok y => .ok (decode (requestWord op x y))

/-- The request word a line sends to the block; a pseudo-instruction sends none (R51). -/
def HostLine.sends (env : HostValues) : HostLine → Except HostStop (Option RequestWord)
  | .send op a b => (requestOf env op a b).map fun i => some (encode i)
  | .bind _ op a b => (requestOf env op a b).map fun i => some (encode i)
  | .fxconst _ _ => .ok none
  | .fxraw _ _ => .ok none

/-- Send one request and take its response. A fault is a hard failure and no value (R86, R99). -/
def exchange (mode : DivAbsMode) (env : HostValues) (op : BitVec 1) (a b : Operand) : Except HostStop Word :=
  match requestOf env op a b with
  | .error e => .error e
  | .ok i =>
    match respond mode i with
    | .value r => .ok r
    | .fault c => .error (.arithmeticFault c)

/-- One line of a host program: the host-held values after it (R50, R51). -/
def HostLine.run (mode : DivAbsMode) (env : HostValues) : HostLine → Except HostStop HostValues
  | .send op a b =>
    match exchange mode env op a b with
    | .ok _ => .ok env
    | .error e => .error e
  | .bind d op a b =>
    match exchange mode env op a b with
    | .ok r => .ok ((d, r) :: env)
    | .error e => .error e
  | .fxconst d x =>
    match fromFloat x with
    | .ok r => .ok ((d, r) :: env)
    | .error e => .error (.conversion e)
  | .fxraw d n =>
    match rawOfInt n with
    | .ok r => .ok ((d, r) :: env)
    | .error e => .error e

/-- A host program without control flow of its own: each line after the one before has its response (R95). It ends well
when this gives values and badly when it stops on a fault (R100). -/
def runHostProgram (mode : DivAbsMode) (env : HostValues) : List HostLine → Except HostStop HostValues
  | [] => .ok env
  | l :: rest =>
    match l.run mode env with
    | .ok env' => runHostProgram mode env' rest
    | .error e => .error e

/-! ### The text of a line (R50, R51). Log 17. -/

/-- A decimal digit. -/
def decimalDigit (c : Char) : Option Nat :=
  if '0' ≤ c ∧ c ≤ '9' then some (c.toNat - '0'.toNat) else none

/-- A hexadecimal digit, of either case (DESIGN CHOICE, log 17). -/
def hexDigit (c : Char) : Option Nat :=
  match decimalDigit c with
  | some d => some d
  | none => if 'a' ≤ c.toLower ∧ c.toLower ≤ 'f' then some (c.toLower.toNat - 'a'.toNat + 10) else none

/-- The number of a run of digits, after `acc`. -/
def readDigits (digit : Char → Option Nat) (base : Nat) : List Char → Nat → Option Nat
  | [], acc => some acc
  | c :: cs, acc =>
    match digit c with
    | some d => readDigits digit base cs (acc * base + d)
    | none => none

/-- An unsigned decimal number of at least one digit; zeros may lead it (DESIGN CHOICE, log 17). -/
def readNat (cs : List Char) : Option Nat := if cs.isEmpty then none else readDigits decimalDigit 10 cs 0

/-- A signed decimal integer (R50, R51). Its only sign is a leading `-`; a leading `+` is refused (DESIGN CHOICE: the spec
says no more than 'signed decimal'). Log 17. -/
def readInt : List Char → Option Int
  | '-' :: cs => (readNat cs).map fun n => -(n : Int)
  | cs => (readNat cs).map fun n => (n : Int)

/-- `v<n>`, the letter in lower case (DESIGN CHOICE, log 17). -/
def readValue : List Char → Option Nat
  | 'v' :: cs => readNat cs
  | _ => none

/-- An operand: `0xHHHHHHHH` with exactly eight digits, `v<n>`, or a signed decimal (R50). That `x` and `v` are in lower
case is a DESIGN CHOICE. Log 17. -/
def readOperand : List Char → Option Operand
  | '0' :: 'x' :: cs =>
    if cs.length = 8 then (readDigits hexDigit 16 cs 0).map fun n => .pattern (BitVec.ofNat 32 n) else none
  | 'v' :: cs => (readNat cs).map .value
  | cs => (readInt cs).map .decimal

/-- A real literal, read to the nearest binary64 value (R51, log 16): an optional `-`, and digits with or without a point,
at least one digit in all. No `+`, no exponent (DESIGN CHOICE: R51 gives no form). Log 17. -/
def readReal (cs : List Char) : Option Binary64 :=
  let negative := cs.head? == some '-'
  let body := if negative then cs.tail else cs
  let whole := body.takeWhile (· != '.')
  let fraction := (body.dropWhile (· != '.')).tail
  (readNat (whole ++ fraction)).map fun n => nearestBinary64 negative n (10 ^ fraction.length)

/-- The select bit a mnemonic names; mnemonics are case-insensitive (R44, R50). -/
def readMnemonic (cs : List Char) : Option (BitVec 1) :=
  let m := cs.map Char.toLower
  if m = ['f', 'x', 'm', 'u', 'l'] then some 0#1
  else if m = ['f', 'x', 'd', 'i', 'v'] then some 1#1
  else none

/-- Split a line at spaces; a comma and an equals sign are tokens of their own, with or without spaces about them (DESIGN
CHOICE, log 17). `cur` is the token so far, reversed. -/
def tokens : List Char → List Char → List (List Char)
  | [], cur => if cur.isEmpty then [] else [cur.reverse]
  | c :: cs, cur =>
    let before := if cur.isEmpty then [] else [cur.reverse]
    if c = ' ' then before ++ tokens cs []
    else if c = ',' ∨ c = '=' then before ++ [c] :: tokens cs []
    else tokens cs (c :: cur)

/-- The request part of a line, `<mnemonic> <a>, <b>`. -/
def readRequest : List (List Char) → Option (BitVec 1 × Operand × Operand)
  | [m, a, [','], b] =>
    match readMnemonic m, readOperand a, readOperand b with
    | some op, some x, some y => some (op, x, y)
    | _, _, _ => none
  | _ => none

/-- The right side of `vD = …` (R50, R51). A request may have every kind of operand here, not host-held values alone; the
names of the pseudo-instructions are case-insensitive as the mnemonics are; and the integer of FXRAW is decimal (DESIGN
CHOICES). Log 17. -/
def readBinding (d : Nat) (ts : List (List Char)) : Option HostLine :=
  match ts with
  | [m, x] =>
    if m.map Char.toLower = ['f', 'x', 'c', 'o', 'n', 's', 't'] then (readReal x).map (.fxconst d)
    else if m.map Char.toLower = ['f', 'x', 'r', 'a', 'w'] then (readInt x).map (.fxraw d)
    else none
  | _ => (readRequest ts).map fun r => .bind d r.1 r.2.1 r.2.2

/-- A line of text (R50, R51); `none` for text that is no line of that syntax. -/
def assembleLine (text : List Char) : Option HostLine :=
  match tokens text [] with
  | v :: ['='] :: rest =>
    match readValue v with
    | some d => readBinding d rest
    | none => none
  | ts => (readRequest ts).map fun r => .send r.1 r.2.1 r.2.2

end Sys2Proof.Machine
end

