-- ==== Sys2Proof/Safety.lean ====
section
/-! DEFINITION. What counts as a good run, in the spec's terms: the host's duties (spec/70_reset_and_hazards.md R94,
R99), responses that belong to their requests (spec/10_state.md R28), and the end of a run (R100). -/

namespace Sys2Proof.Machine

/-- Every input bit the coming step samples is defined (R94). -/
def State.inputsDefined (s : State) : Prop := ∃ e, s.event = .ok e

/-- The state `k` steps later; `none` when a step on the way stops. -/
def State.after : Nat → State → Option State
  | 0, s => some s
  | k + 1, s =>
    match step s with
    | .next t => State.after k t
    | _ => none

/-- A reply to a request is the response the operation gives that request; a reply to no request is not constrained
(R28, R98). -/
def Reply.Honest (mode : DivAbsMode) : Reply → Prop
  | .answer i r => r = respond mode i
  | .leftover _ => True
  | .unsteady _ => True

/-- Every reply in flight or given to the host is the response to its own request (R28, R98). -/
def State.Honest (s : State) : Prop :=
  (∀ x, some x ∈ s.inflight → x.Honest s.divAbsMode) ∧ ∀ x ∈ s.received, x.Honest s.divAbsMode

/-- The replies accepted and not yet given, oldest first (R30, R96). -/
def State.outstanding (s : State) : List Reply := s.inflight.reverse.filterMap id

/-- A step on which the host issues no request: it is idle, or a reset edge (R28, R92). -/
def Event.asksNothing : Event → Bool
  | .reset => true
  | .idle => true
  | .request _ => false
  | .unsteadyRead => false

/-- The host issues no request with these signals, and drives them defined (R94, R100). -/
def Pins.asksNothing (latency : Nat) (p : Pins) : Bool :=
  match p.event latency with
  | .ok e => e.asksNothing
  | .error _ => false

/-- The host issues no further request, now or in the rest of its script (R100). -/
def State.hostDone (s : State) : Bool := (s.pins :: s.script).all (Pins.asksNothing s.latency)

/-- The requests accepted and not yet answered, oldest first (R30, R100). -/
def State.pending (s : State) : List Instr := s.inflight.reverse.filterMap slotRequest

/-- The run has ended: no further request, and every accepted request has its response (R100). -/
def State.ended (s : State) : Bool := s.hostDone && s.pending.isEmpty

/-- The block needs no reset edge before a request: it has had one, or it has no reset (R94). -/
def State.Booted (s : State) : Prop := s.latency = 0 ∨ s.awaitsReset = false

/-- A reply that spoils a run: a fault response, or one read while the inputs change (R100, R101). -/
def Reply.spoils : Reply → Bool
  | .answer _ (.value _) => false
  | .answer _ (.fault _) => true
  | .leftover _ => false
  | .unsteady _ => true

/-- The run has ended well: no response had `fault = 1`, and no request went without one (R100). -/
def State.endsWell (s : State) : Bool := s.ended && s.discarded.isEmpty && s.received.all fun r => !r.spoils

/-- Nothing so far spoils the run of a block with EXACT: no request went without a response, none was presented before
the first reset, and no reply in flight or given is a fault or an unsteady read (R73, R94, R100). -/
def State.Clean (s : State) : Prop :=
  s.divAbsMode = .exact ∧ s.discarded = [] ∧ (s.awaitsReset = true → s.pending = []) ∧
    (∀ x, some x ∈ s.inflight → x.spoils = false) ∧ ∀ x ∈ s.received, x.spoils = false

/-- No slot holds what a host read of changing inputs: that is read of a block without slots (R101). -/
def State.NoUnsteadySlot (s : State) : Prop := ∀ w, some (.unsteady w) ∉ s.inflight

end Sys2Proof.Machine
end

