-- ==== Sys2Proof/Certificates/Slice0/Obligations.lean ====
section
/-! DEFINITION. The statements about the block, each from the numbered rules of spec/. Every one is for every LATENCY
and, unless it says otherwise, for both values of DIV_ABS_MODE. -/

open Sys2Proof Sys2Proof.Machine

/-! ### Encoding -/

/-- R43, R44, R45, R48: decoding the word of a request gives the request, and every one of the 2^65 words is the word
of the request it decodes to. -/
def Obligations.RequestWordRoundTrip : Prop :=
  (∀ i : Instr, i.wellFormed = true → decode (encode i) = i) ∧ ∀ w : RequestWord, encode (decode w) = w

/-- R44: the decoder looks at the select bit alone: 0 is FXMUL, 1 is FXDIV, on the operands as they stand (R45). -/
def Obligations.SelectBitDecodesOperation : Prop :=
  ∀ a b : Word, decode (requestWord 0#1 a b) = .fxmul a b ∧ decode (requestWord 1#1 a b) = .fxdiv a b

/-- R43, R48, R49: every number of 65 bits is a request, two numbers never the same one, and a wider one is refused. -/
def Obligations.ExactlyTheSixtyFiveBitWordsDecode : Prop :=
  ∀ n : Nat,
    (n < 2 ^ 65 → ∃ i, decodeNat n = .ok i ∧ i.wellFormed = true ∧ (encode i).toNat = n) ∧
    (2 ^ 65 ≤ n → decodeNat n = .error .widerThanRequestWord)

/-- R52: the four request words and the response word the spec writes out; each assembly line sends its word, and the
word decodes to the request. -/
def Obligations.SpecExampleWordsDecode : Prop :=
  (assembleLine "FXMUL 0x00010000, 0x00020000".toList).map (HostLine.sends []) =
    some (.ok (some 0x00001000000020000#65)) ∧
  (assembleLine "FXDIV 0x7FFFFFFF, 0x00000001".toList).map (HostLine.sends []) =
    some (.ok (some 0x17FFFFFFF00000001#65)) ∧
  (assembleLine "FXDIV -65536, 0".toList).map (HostLine.sends []) = some (.ok (some 0x1FFFF000000000000#65)) ∧
  (assembleLine "FXMUL 0x004BC000, 0x00641999".toList).map (HostLine.sends []) =
    some (.ok (some 0x0004BC00000641999#65)) ∧
  decode 0x00001000000020000#65 = .fxmul 0x00010000#32 0x00020000#32 ∧
  decode 0x17FFFFFFF00000001#65 = .fxdiv 0x7FFFFFFF#32 0x00000001#32 ∧
  decode 0x1FFFF000000000000#65 = .fxdiv (BitVec.ofInt 32 (-65536)) 0#32 ∧
  decode 0x0004BC00000641999#65 = .fxmul 0x004BC000#32 0x00641999#32 ∧
  encodeResponse (.value 0x7FFFFFFF#32) 0#32 = 0x07FFFFFFF#35

/-- R46, R47, R48: reading the word of a response gives the response, whatever stands in the `result` bits of a fault;
the block never drives the cause 11; and a word with cause 11 is given no meaning. -/
def Obligations.ResponseWordRoundTrip : Prop :=
  (∀ (r : Response) (u : Word), decodeResponse (encodeResponse r u) = .ok r) ∧
  (∀ (r : Response) (u : Word), (encodeResponse r u).extractLsb' 33 2 ≠ 0b11#2) ∧
  ∀ w : ResponseWord, w.extractLsb' 33 2 = 0b11#2 → decodeResponse w = .error .reservedCause

/-! ### Datapath units -/

/-- R53: `widen_mul` is the exact product, inside `[-2^62 + 2^31, 2^62]`. -/
def Obligations.WideningMultiplyIsExact : Prop :=
  ∀ a b : Word, (widenMul a b).toInt = a.toInt * b.toInt ∧
    -2 ^ 62 + 2 ^ 31 ≤ (widenMul a b).toInt ∧ (widenMul a b).toInt ≤ 2 ^ 62

/-- R54: `asr16` is the floor of the division by 65536; its bits are 16 copies of the sign bit, then bits 63:16; for any
product of R53 its magnitude is at most 2^46. -/
def Obligations.ShiftRightSixteenFloors : Prop :=
  (∀ p : Wide, (asr16 p).toInt = Int.fdiv p.toInt 65536 ∧
    (asr16 p).extractLsb' 48 16 = (if p.msb then 0xFFFF#16 else 0x0000#16) ∧
    (asr16 p).extractLsb' 0 48 = p.extractLsb' 16 48) ∧
  ∀ a b : Word, |(asr16 (widenMul a b)).toInt| ≤ 2 ^ 46

/-- R55: `narrow_wrap` keeps the low 32 bits: its value is the one in the 32-bit range congruent to its input modulo
2^32, and the input itself when that is in range. -/
def Obligations.WrappingNarrowKeepsLowBits : Prop :=
  ∀ y : Wide, narrowWrap y = y.extractLsb' 0 32 ∧ (2 ^ 32 : Int) ∣ y.toInt - (narrowWrap y).toInt ∧
    int32Min ≤ (narrowWrap y).toInt ∧ (narrowWrap y).toInt ≤ int32Max ∧
    (int32Min ≤ y.toInt → y.toInt ≤ int32Max → (narrowWrap y).toInt = y.toInt)

/-- R56: `sat_select` reads the sign bits only. -/
def Obligations.SaturationSelectReadsSignBits : Prop :=
  ∀ a b : Word, (xor32 a b < 0 ↔ a.msb ≠ b.msb) ∧
    (satSelect a b).toInt = if a.msb ≠ b.msb then int32Min else int32Max

/-- R57: `narrow_checked` raises RANGE_OVERFLOW outside the 32-bit range, and else keeps the value. -/
def Obligations.CheckedNarrowFaultsOutOfRange : Prop :=
  ∀ c : Wide,
    ((c.toInt < int32Min ∨ c.toInt > int32Max) → narrowChecked c = .error .rangeOverflow) ∧
    (int32Min ≤ c.toInt → c.toInt ≤ int32Max → ∃ r, narrowChecked c = .ok r ∧ r.toInt = c.toInt)

/-- R58: the guard's absolute value: `|v|` with EXACT, 2^31 for `INT32_MIN`; with WRAP32 the same but for `INT32_MIN`,
which stays `INT32_MIN`; the two differ at no other value. -/
def Obligations.GuardAbsoluteValueByMode : Prop :=
  ∀ v : Word, guardAbs .exact v = |v.toInt| ∧
    guardAbs .wrap32 v = (if v = minWord then int32Min else |v.toInt|) ∧
    (guardAbs .exact v ≠ guardAbs .wrap32 v ↔ v = minWord) ∧ guardAbs .exact minWord = 2 ^ 31

/-- R59: the guard is the signed comparison of `floor(A(a) / 2^14)` with `A(b)`; with EXACT the sides are non-negative
and the left one is at most 131072; with WRAP32 it is -131072 for `INT32_MIN`. -/
def Obligations.GuardComparesShiftedMagnitude : Prop :=
  (∀ (mode : DivAbsMode) (a b : Word),
    guardTrips mode a b = true ↔ Int.fdiv (guardAbs mode a) 16384 ≥ guardAbs mode b) ∧
  (∀ v : Word, 0 ≤ guardAbs .exact v ∧ 0 ≤ Int.fdiv (guardAbs .exact v) 16384 ∧
    Int.fdiv (guardAbs .exact v) 16384 ≤ 131072) ∧
  Int.fdiv (guardAbs .wrap32 minWord) 16384 = -131072

/-- R60: `scale16` is exactly the dividend times 65536, of magnitude at most 2^47. -/
def Obligations.DividendScalingIsExact : Prop :=
  ∀ a : Word, (scale16 a).toInt = a.toInt * 65536 ∧ |(scale16 a).toInt| ≤ 2 ^ 47

/-- R61: `tdiv` raises ZERO_DIVISOR on a zero divisor, and else is exactly the quotient rounded toward zero (but for the
64-bit case `-2^63 / -1`); for any scaled dividend and widened divisor that case does not arise, and the quotient has
magnitude at most 2^47. -/
def Obligations.DividerTruncatesTowardZero : Prop :=
  (∀ n : Wide, tdiv n 0#64 = .error .zeroDivisor) ∧
  (∀ n d : Wide, d ≠ 0#64 → ¬(n.toInt = -2 ^ 63 ∧ d.toInt = -1) →
    ∃ c, tdiv n d = .ok c ∧ c.toInt = Int.tdiv n.toInt d.toInt) ∧
  ∀ a b : Word, b ≠ 0#32 → ∃ c, tdiv (scale16 a) (sext64 b) = .ok c ∧
    c.toInt = Int.tdiv (a.toInt * 65536) b.toInt ∧ |c.toInt| ≤ 2 ^ 47

/-! ### FXMUL -/

/-- R63, R64: the request with `op = 0` is FXMUL, and FXMUL completes in every state, answering
`s32(floor(a * b / 65536))` with no fault. -/
def Obligations.FxmulAnswersFlooredProduct : Prop :=
  ∀ (a b : Word) (s : State), decode (requestWord 0#1 a b) = .fxmul a b ∧
    exec (.fxmul a b) s =
      .next (s.answer (.fxmul a b) (.value (BitVec.ofInt 32 (Int.fdiv (a.toInt * b.toInt) 65536))))

/-- R65: the overflow is exactly `a * b >= 2^47` or `a * b < -2^47`; in every case FXMUL answers bits [47:16] of the
product, with no fault and no saturation. -/
def Obligations.FxmulOverflowWraps : Prop :=
  ∀ (a b : Word) (s : State),
    ((Int.fdiv (a.toInt * b.toInt) 65536 < int32Min ∨ Int.fdiv (a.toInt * b.toInt) 65536 > int32Max) ↔
      (a.toInt * b.toInt ≥ 2 ^ 47 ∨ a.toInt * b.toInt < -2 ^ 47)) ∧
    exec (.fxmul a b) s = .next (s.answer (.fxmul a b)
      (.value ((BitVec.ofInt 64 (a.toInt * b.toInt)).extractLsb' 16 32)))

/-- R66: the laws of FXMUL, on its result `mulResult`: commutative, 1.0 an identity, zero; the sign of a result that does not overflow; negation is
not symmetric; not associative. -/
def Obligations.FxmulAlgebraicLaws : Prop :=
  (∀ (a b : Word) (s : State), exec (.fxmul a b) s = .next (s.answer (.fxmul a b) (.value (mulResult a b)))) ∧
  (∀ a b : Word, mulResult a b = mulResult b a) ∧
  (∀ a : Word, mulResult a 0x00010000#32 = a ∧ mulResult a 0#32 = 0#32) ∧
  (∀ a b : Word, int32Min ≤ Int.fdiv (a.toInt * b.toInt) 65536 → Int.fdiv (a.toInt * b.toInt) 65536 ≤ int32Max →
    (65536 ≤ a.toInt * b.toInt → 0 < (mulResult a b).toInt) ∧
    (0 ≤ a.toInt * b.toInt → a.toInt * b.toInt < 65536 → mulResult a b = 0#32) ∧
    (-65536 ≤ a.toInt * b.toInt → a.toInt * b.toInt < 0 → (mulResult a b).toInt = -1) ∧
    (a.toInt * b.toInt < 0 → (mulResult a b).toInt < 0)) ∧
  (mulResult 1#32 1#32 = 0#32 ∧ (mulResult (-1#32) 1#32).toInt = -1) ∧
  (∀ a : Word, mulResult a a = BitVec.ofInt 32 (Int.fdiv (a.toInt * a.toInt) 65536)) ∧
  ∃ a b c : Word, mulResult (mulResult a b) c ≠ mulResult a (mulResult b c)

/-- R67: FXMUL never faults, in either mode; its response has `fault = 0` and `fault_cause = 00`; and it has no side
effect: the build, the signals, the host's script and what was discarded stay, and the replies given and outstanding
grow by this response alone. -/
def Obligations.FxmulNeverFaults : Prop :=
  ∀ (a b : Word) (s : State), ∃ t r, exec (.fxmul a b) s = .next t ∧
    r.faultBit = 0#1 ∧ r.causeBits = 0b00#2 ∧ (∀ u, (encodeResponse r u).extractLsb' 32 3 = 0b000#3) ∧
    t.divAbsMode = s.divAbsMode ∧ t.pins = s.pins ∧ t.script = s.script ∧ t.discarded = s.discarded ∧
    t.awaitsReset = s.awaitsReset ∧
    t.received ++ t.outstanding = s.received ++ s.outstanding ++ [.answer (.fxmul a b) r]

/-! ### FXDIV -/

/-- R68, R84: the request with `op = 1` is FXDIV, and FXDIV completes in every state and mode, by the checks in their order: the guard, the zero divisor, the
range of the quotient rounded toward zero. -/
def Obligations.FxdivAnswersByOrderedChecks : Prop :=
  ∀ (a b : Word) (s : State), decode (requestWord 1#1 a b) = .fxdiv a b ∧
    exec (.fxdiv a b) s = .next (s.answer (.fxdiv a b)
      (if guardTrips s.divAbsMode a b then .value (satSelect a b)
       else if b = 0#32 then .fault .zeroDivisor
       else if Int.tdiv (a.toInt * 65536) b.toInt < int32Min ∨ Int.tdiv (a.toInt * 65536) b.toInt > int32Max then
         .fault .rangeOverflow
       else .value (BitVec.ofInt 32 (Int.tdiv (a.toInt * 65536) b.toInt))))

/-- R69: with EXACT the guard is true exactly when `|a| >= 16384 * |b|`, and for `b = 0` for every `a`; it is
conservative, as the spec's three examples show. -/
def Obligations.ExactGuardComparesMagnitudes : Prop :=
  (∀ a b : Word, b ≠ 0#32 → (guardTrips .exact a b = true ↔ |a.toInt| ≥ 16384 * |b.toInt|)) ∧
  (∀ a : Word, guardTrips .exact a 0#32 = true) ∧
  respond .exact (.fxdiv 0x40000000#32 0x00010000#32) = .value 0x7FFFFFFF#32 ∧
  respond .exact (.fxdiv 0x00003FFF#32 0x00000001#32) = .value 0x3FFF0000#32 ∧
  respond .exact (.fxdiv 0x00004000#32 0x00000001#32) = .value 0x7FFFFFFF#32

/-- R70: when the guard is true FXDIV answers `INT32_MIN` if the sign bits differ and `INT32_MAX` if not, with no
fault, in either mode. -/
def Obligations.FxdivSaturatesWhenGuardTrips : Prop :=
  ∀ (a b : Word) (s : State), guardTrips s.divAbsMode a b = true →
    exec (.fxdiv a b) s = .next (s.answer (.fxdiv a b)
      (.value (if a.msb ≠ b.msb then 0x80000000#32 else 0x7FFFFFFF#32)))

/-- R71: with EXACT a zero divisor saturates by the sign of the dividend, `0 / 0` to `INT32_MAX`, and never faults. -/
def Obligations.FxdivByZeroSaturates : Prop :=
  ∀ (a : Word) (s : State), s.divAbsMode = .exact →
    exec (.fxdiv a 0#32) s = .next (s.answer (.fxdiv a 0#32)
      (.value (if a.toInt < 0 then 0x80000000#32 else 0x7FFFFFFF#32)))

/-- R72: with EXACT and the guard false FXDIV answers `trunc_div(a * 65536, b)`; for the divisor `INT32_MIN` that is
`trunc_div(-a, 32768)`. -/
def Obligations.FxdivComputesTruncatedQuotient : Prop :=
  ∀ (a b : Word) (s : State), s.divAbsMode = .exact → guardTrips .exact a b = false →
    ∃ r : Word, exec (.fxdiv a b) s = .next (s.answer (.fxdiv a b) (.value r)) ∧
      r.toInt = Int.tdiv (a.toInt * 65536) b.toInt ∧
      (b = minWord → r.toInt = Int.tdiv (-a.toInt) 32768)

/-- R73, R75: with EXACT FXDIV never faults; a computed quotient has magnitude at most 2^30 - 1; so a result is
`INT32_MIN` or `INT32_MAX` exactly when the guard was true. With WRAP32 this is not so. -/
def Obligations.ExactFxdivNeverFaults : Prop :=
  (∀ (a b : Word) (s : State), s.divAbsMode = .exact →
    ∃ r : Word, exec (.fxdiv a b) s = .next (s.answer (.fxdiv a b) (.value r)) ∧
      (guardTrips .exact a b = false → |r.toInt| ≤ 2 ^ 30 - 1) ∧
      ((r = minWord ∨ r = maxWord) ↔ guardTrips .exact a b = true)) ∧
  guardTrips .wrap32 minWord 0x00010000#32 = false ∧
  respond .wrap32 (.fxdiv minWord 0x00010000#32) = .value minWord

/-- R74: where the WRAP32 response differs from the EXACT one, row by row, and that it differs nowhere else. -/
def Obligations.WrapModeDiffersOnlyAtMinimum : Prop :=
  (∀ a b : Word, a ≠ minWord → b ≠ minWord → respond .wrap32 (.fxdiv a b) = respond .exact (.fxdiv a b)) ∧
  (∀ a : Word, a ≠ minWord →
    respond .wrap32 (.fxdiv a minWord) = .value (if a.toInt ≥ 0 then 0x80000000#32 else 0x7FFFFFFF#32) ∧
    respond .exact (.fxdiv a minWord) = .value (BitVec.ofInt 32 (Int.tdiv (-a.toInt) 32768))) ∧
  (respond .wrap32 (.fxdiv minWord minWord) = .value 0x7FFFFFFF#32 ∧
    respond .exact (.fxdiv minWord minWord) = .value 0x00010000#32) ∧
  (respond .wrap32 (.fxdiv minWord 0#32) = .fault .zeroDivisor ∧
    respond .exact (.fxdiv minWord 0#32) = .value 0x80000000#32) ∧
  (∀ b : Word, (1 ≤ b.toInt ∧ b.toInt ≤ 65535) ∨ (-65536 ≤ b.toInt ∧ b.toInt ≤ -1) →
    respond .wrap32 (.fxdiv minWord b) = .fault .rangeOverflow ∧
    respond .exact (.fxdiv minWord b) = .value (satSelect minWord b)) ∧
  (∀ b : Word, (65536 ≤ b.toInt ∧ b.toInt ≤ 131072) ∨ (-131072 ≤ b.toInt ∧ b.toInt ≤ -65537) →
    respond .wrap32 (.fxdiv minWord b) = .value (BitVec.ofInt 32 (Int.tdiv (-2 ^ 47) b.toInt)) ∧
    respond .exact (.fxdiv minWord b) = .value (satSelect minWord b)) ∧
  (∀ b : Word, |b.toInt| > 131072 → b ≠ minWord →
    respond .wrap32 (.fxdiv minWord b) = .value (BitVec.ofInt 32 (Int.tdiv (-2 ^ 47) b.toInt)) ∧
    respond .exact (.fxdiv minWord b) = respond .wrap32 (.fxdiv minWord b))

/-- R76: on the computed path the result is within 1/65536 of the real quotient, and lies between it and 0. -/
def Obligations.FxdivPrecision : Prop :=
  ∀ (mode : DivAbsMode) (a b r : Word), guardTrips mode a b = false → divOutcome mode a b = .ok r →
    |(r.toInt : ℚ) / 65536 - (a.toInt : ℚ) / (b.toInt : ℚ)| < 1 / 65536 ∧
    ((0 ≤ (r.toInt : ℚ) / 65536 ∧ (r.toInt : ℚ) / 65536 ≤ (a.toInt : ℚ) / (b.toInt : ℚ)) ∨
     ((a.toInt : ℚ) / (b.toInt : ℚ) ≤ (r.toInt : ℚ) / 65536 ∧ (r.toInt : ℚ) / 65536 ≤ 0))

/-- R77, first three laws and the last but one: with EXACT, a value over itself is 1.0, `0 / 0` is `INT32_MAX`, 1.0 is a
right identity exactly below 2^30, zero over a nonzero divisor is zero, and FXDIV is not commutative. -/
def Obligations.FxdivQuotientLaws : Prop :=
  (∀ a : Word, a ≠ 0#32 → respond .exact (.fxdiv a a) = .value 0x00010000#32) ∧
  respond .exact (.fxdiv 0#32 0#32) = .value maxWord ∧
  (∀ a : Word, |a.toInt| < 2 ^ 30 → respond .exact (.fxdiv a 0x00010000#32) = .value a) ∧
  (∀ a : Word, |a.toInt| ≥ 2 ^ 30 →
    respond .exact (.fxdiv a 0x00010000#32) = .value (if a.toInt < 0 then minWord else maxWord)) ∧
  (∀ b : Word, b ≠ 0#32 → respond .exact (.fxdiv 0#32 b) = .value 0#32) ∧
  ∃ a b : Word, respond .exact (.fxdiv a b) ≠ respond .exact (.fxdiv b a)

/-- R77, the law of negation, with EXACT: negating a representable operand keeps the path, negates a computed result, and
swaps the two boundary values of a saturated one. A zero operand is its own negation, so the swap is stated of a nonzero
one. -/
def Obligations.FxdivNegationLaws : Prop :=
  ∀ a b : Word,
    (a ≠ minWord → guardTrips .exact (-a) b = guardTrips .exact a b) ∧
    (b ≠ minWord → guardTrips .exact a (-b) = guardTrips .exact a b) ∧
    (guardTrips .exact a b = false → ∃ r, respond .exact (.fxdiv a b) = .value r ∧
      (a ≠ minWord → respond .exact (.fxdiv (-a) b) = .value (-r)) ∧
      (b ≠ minWord → respond .exact (.fxdiv a (-b)) = .value (-r))) ∧
    (guardTrips .exact a b = true → ∃ r r', (r, r') ∈ [(minWord, maxWord), (maxWord, minWord)] ∧
      respond .exact (.fxdiv a b) = .value r ∧
      (a ≠ minWord → a ≠ 0#32 → respond .exact (.fxdiv (-a) b) = .value r') ∧
      (b ≠ minWord → b ≠ 0#32 → respond .exact (.fxdiv a (-b)) = .value r'))

/-! ### ArithmeticFault -/

/-- R79, R82: which requests fault, in which mode, with which cause and code: FXDIV only, with WRAP32 only,
`a = INT32_MIN` only, with the divisors of R74. -/
def Obligations.ArithmeticFaultExactlyWhen : Prop :=
  (∀ (mode : DivAbsMode) (i : Instr) (c : Cause),
    respond mode i = .fault c ↔
      mode = .wrap32 ∧ ∃ b : Word, i = .fxdiv minWord b ∧
        ((c = .zeroDivisor ∧ b = 0#32) ∨
         (c = .rangeOverflow ∧ b ≠ 0#32 ∧ -65536 ≤ b.toInt ∧ b.toInt ≤ 65535))) ∧
  (Response.fault .rangeOverflow).causeBits = 0b01#2 ∧ (Response.fault .zeroDivisor).causeBits = 0b10#2

/-- R80, R83, R86: taking ArithmeticFault leaves what the same edge leaves when it answers a value: mode, signals, the
host's script, the requests in flight and the replies before it; it is reported in its own reply and in no other, and
the next request is served as if no fault had happened. -/
def Obligations.ArithmeticFaultIsLocal : Prop :=
  ∀ (a b : Word) (c : Cause) (s : State) (j : Instr), divOutcome s.divAbsMode a b = .error c →
    ∃ t, exec (.fxdiv a b) s = .next t ∧ t = s.raiseArithmeticFault (.fxdiv a b) c ∧
      t.divAbsMode = s.divAbsMode ∧ t.pins = s.pins ∧ t.script = s.script ∧ t.discarded = s.discarded ∧
      t.awaitsReset = s.awaitsReset ∧
      t.received ++ t.outstanding = s.received ++ s.outstanding ++ [.answer (.fxdiv a b) (.fault c)] ∧
      exec j t = .next (t.answer j (respond s.divAbsMode j))

/-- R29: what the output signals say of a response: `fault = 0` with cause 00 and the result, or `fault = 1` with the
code of the cause; and the response to FXMUL always has `fault = 0`. -/
def Obligations.OutputSignalsReportResponse : Prop :=
  (∀ (mode : DivAbsMode) (a b : Word), (respond mode (.fxmul a b)).faultBit = 0#1) ∧
  ∀ (s : State) (i : Instr), (∀ v, s.output = some (.answer i (.value v)) →
      s.responsePresent = true ∧ s.faultPin = 0#1 ∧ s.causePin = 0b00#2 ∧ s.resultPin = v) ∧
    ∀ c, s.output = some (.answer i (.fault c)) →
      s.responsePresent = true ∧ s.faultPin = 1#1 ∧
      s.causePin = match c with | .rangeOverflow => 0b01#2 | .zeroDivisor => 0b10#2

/-! ### One step -/

/-- R28, R43, R44: when the coming step samples a request whose word is `w`, it runs the request the decoder reads from
`w`: `exec` of it, and then the passage to the next cycle. That a step with `LATENCY = 0` is one moment at which the host reads
or does not is the model's reading (log 1). -/
def Obligations.StepRunsDecodedRequest : Prop :=
  ∀ (s : State) (op : BitVec 1) (a b : Word), s.pins.op = some op → s.pins.a = some a → s.pins.b = some b →
    ((s.latency = 0 ∧ s.pins.read = .steady) ∨
     (0 < s.latency ∧ s.pins.rst = some false ∧ s.pins.inValid = some true)) →
    step s = match exec (decode (requestWord op a b)) s with
      | .next t => .next t.nextCycle
      | .fault f => .fault f
      | .refused r => .refused r

/-- R28, R43: a request placed on the inputs is the next one run, whatever LATENCY is. -/
def Obligations.PlacedRequestRunsNext : Prop :=
  ∀ (s : State) (nbits w : Nat) (i : Instr), decodeTableWord nbits w = some i →
    ∃ t, exec i (s.withFetchWord nbits w) = .next t ∧ step (s.withFetchWord nbits w) = .next t.nextCycle

/-- R78, R19, R20: what executing a request leaves unchanged: the build's parameters, the signals, what the host will
drive, what was discarded, every reply given before, and every request in flight (there are no registers, flags or
memory, R21, R23, R26): the replies given and outstanding grow by the one answer to this request. -/
def Obligations.ExecutionFrame : Prop :=
  ∀ (i : Instr) (s t : State), exec i s = .next t →
    t.divAbsMode = s.divAbsMode ∧ t.latency = s.latency ∧ t.pins = s.pins ∧ t.script = s.script ∧
    t.discarded = s.discarded ∧ t.awaitsReset = s.awaitsReset ∧ t.tick = s.tick ∧ s.received <+: t.received ∧
    ∃ r, t.received ++ t.outstanding = s.received ++ s.outstanding ++ [.answer i r]

/-- R94: a step stops exactly where a sampled input has an undefined bit, and no step refuses. That `rst` must be
defined, and that a combinational block nobody reads samples nothing, is the model's reading (logs 1, 8). -/
def Obligations.StepStopsOnlyOnUndefinedInputs : Prop :=
  ∀ s : State,
    ((∃ f, step s = .fault f) ↔
      ((((s.latency = 0 ∧ s.pins.read ≠ .noRead) ∨ (0 < s.latency ∧ s.pins.inValid = some true)) ∧
          (s.pins.op = none ∨ s.pins.a = none ∨ s.pins.b = none)) ∨
       (0 < s.latency ∧ (s.pins.rst = none ∨ s.pins.inValid = none)))) ∧
    ∀ r, step s ≠ .refused r

/-- R98, R7: no step changes `DIV_ABS_MODE` or `LATENCY`. -/
def Obligations.BuildParametersNeverChange : Prop :=
  ∀ s t : State, step s = .next t → t.divAbsMode = s.divAbsMode ∧ t.latency = s.latency

/-! ### Latency, order and reset -/

/-- R27, R92, R97: at each step, with or without reset, the host is given exactly the reply that is on the outputs, if
any, and nothing else; a host of a combinational block that reads nothing is given nothing. That such a host is given a
reply only when it reads is the model's reading (log 1). -/
def Obligations.StepDeliversTheOutput : Prop :=
  ∀ s t : State, step s = .next t →
    t.received = s.received ++ if s.latency = 0 ∧ s.pins.read = .noRead then [] else s.output.toList

/-- R38, R96: an accepted request gets exactly one reply, and replies come in the order of acceptance: at an edge without
reset the replies given and outstanding stay the same list, in the same order, but for the newly accepted request at its
end. A block with `LATENCY > 0` must have had its reset edge, as R94 requires of the host; the bound on the replies
outstanding (R30) needs none. -/
def Obligations.RepliesInOrderExactlyOnce : Prop :=
  ∀ s t : State, step s = .next t →
    (s.Booted → s.event = .ok .idle → t.received ++ t.outstanding = s.received ++ s.outstanding) ∧
    (∀ i, s.Booted → s.event = .ok (.request i) →
      t.received ++ t.outstanding = s.received ++ s.outstanding ++ [.answer i (respond s.divAbsMode i)]) ∧
    t.outstanding.length ≤ t.latency

/-- R30, R97: in a block that has had its reset edge (R94), the reply in each slot moves to the next slot at every edge
without reset, what is accepted takes the first slot, which is otherwise empty, and the last slot is on the outputs. -/
def Obligations.SlotsMoveOnByOne : Prop :=
  ∀ s t : State, 0 < s.latency → s.awaitsReset = false → step s = .next t → s.event ≠ .ok .reset →
    t.latency = s.latency ∧ (∀ k, k + 1 < s.latency → t.inflight[k + 1]? = s.inflight[k]?) ∧
    (∀ i, s.event = .ok (.request i) → t.inflight[0]? = some (some (.answer i (respond s.divAbsMode i)))) ∧
    (s.event = .ok .idle → t.inflight[0]? = some none) ∧ s.inflight[s.latency - 1]? = some s.output

/-- R97: with `LATENCY = L > 0`, the response to a request accepted at an edge is on the outputs in the cycle that ends
`L` edges later, if no edge before that resets the block. The host has held `rst = 1` for an edge before, as R94 requires
of it. -/
def Obligations.ResponseComesLatencyEdgesLater : Prop :=
  ∀ (s t u : State) (i : Instr), 0 < s.latency → s.awaitsReset = false → s.event = .ok (.request i) →
    step s = .next t →
    (∀ k v, k < s.latency - 1 → t.after k = some v → v.event ≠ .ok .reset) →
    t.after (s.latency - 1) = some u →
    u.output = some (.answer i (respond s.divAbsMode i)) ∧ u.responsePresent = true ∧
    ∀ w, step u = .next w → w.received = u.received ++ [.answer i (respond s.divAbsMode i)]

/-- R27, R96: with `LATENCY = 0` a response is present in every state; and the output word is the response to the current
inputs, wherever they are defined (R94) and do not change under a read (R101), read or not. -/
def Obligations.CombinationalResponseIsAlwaysPresent : Prop :=
  ∀ s : State, s.latency = 0 → s.responsePresent = true ∧
    ∀ (op : BitVec 1) (a b : Word), s.pins.op = some op → s.pins.a = some a → s.pins.b = some b →
      s.pins.read ≠ .changing →
      decodeResponse s.outputWord = .ok (respond s.divAbsMode (decode (requestWord op a b)))

/-- R101: with `LATENCY = 0`, a response read while the inputs change is not specified: the host is given one reply,
whose word is free, and nothing else happens. -/
def Obligations.UnsteadyReadIsUnspecified : Prop :=
  ∀ (s : State) (i : Instr), s.latency = 0 → s.pins.request = .ok i → s.pins.read = .changing →
    ∃ t, step s = .next t ∧ t.received = s.received ++ [.unsteady (Config.freeWord s.tick)] ∧
      t.divAbsMode = s.divAbsMode ∧ t.inflight = s.inflight ∧ t.discarded = s.discarded ∧
      t.awaitsReset = s.awaitsReset

/-- R92: at a rising edge with `rst = 1` the reply on the outputs is still delivered, every other request in flight is
discarded with no reply, every valid bit is cleared, nothing is accepted even if `in_valid = 1`, and `out_valid = 0` in
the next cycle; with `LATENCY = 0` there is no reset. -/
def Obligations.ResetEdgeClearsRequestsInFlight : Prop :=
  ∀ s : State,
    (0 < s.latency → s.pins.rst = some true →
      (s.pins.inValid = some false ∨ s.pins.inValid = some true ∧ ∃ i, s.pins.request = .ok i) →
      ∃ t, step s = .next t ∧ t.inflight = List.replicate s.latency none ∧ t.outstanding = [] ∧
        t.responsePresent = false ∧ t.awaitsReset = false ∧ t.received = s.received ++ s.output.toList ∧
        t.discarded = s.discarded ++ s.inflight.dropLast.reverse.filterMap slotRequest) ∧
    (s.latency = 0 → s.event ≠ .ok .reset)

/-- R31, R92: with `LATENCY > 0`, after a reset edge and with nothing in flight, `out_valid` is 0, and it stays so over any
edges that accept no request. -/
def Obligations.NoResponseUntilRequestAccepted : Prop :=
  ∀ (k : Nat) (s t : State), 0 < s.latency → s.awaitsReset = false → s.outstanding = [] →
    (∀ j v i, j < k → s.after j = some v → v.event ≠ .ok (.request i)) →
    s.after k = some t → t.outstanding = [] ∧ t.responsePresent = false ∧ t.received = s.received

/-- R31, R93: after reset, for any mode and LATENCY, nothing is in flight and the host has been given nothing; with
`LATENCY > 0` `out_valid` is 0; the first request is served as any later one. -/
def Obligations.ResetStateIsIdle : Prop :=
  ∀ (mode : DivAbsMode) (latency : Nat) (i : Instr),
    (State.resetWith mode latency).latency = latency ∧ (State.resetWith mode latency).outstanding = [] ∧
    (State.resetWith mode latency).received = [] ∧ (State.resetWith mode latency).discarded = [] ∧
    (State.resetWith mode latency).awaitsReset = false ∧
    (0 < latency → (State.resetWith mode latency).responsePresent = false) ∧
    exec i (State.resetWith mode latency) =
      .next ((State.resetWith mode latency).answer i (respond mode i))

/-- R31, R93, R94: one edge with `rst = 1` after power-up, with `in_valid` 0 or 1 (R92), clears every slot, and the block
waits for no further reset. What the slots hold at power-up is the model's form of the spec's 'unspecified' (log 6, DESIGN
CHOICE): free words that answer no request; that this edge discards no request rests on that choice. That `op`, `a` and
`b` must be defined at it if `in_valid = 1` is the model's reading (log 8). -/
def Obligations.OneResetEdgeEndsPowerUp : Prop :=
  ∀ (mode : DivAbsMode) (latency : Nat) (p : Pins), 0 < latency → p.rst = some true →
    (p.inValid = some false ∨ p.inValid = some true ∧ ∃ i, p.request = .ok i) →
    ∃ t, step { State.powerUp mode latency with pins := p } = .next t ∧
      t.inflight = (State.resetWith mode latency).inflight ∧ t.responsePresent = false ∧ t.awaitsReset = false ∧
      t.divAbsMode = mode ∧ t.discarded = []

/-- R31, R94: until the first edge with `rst = 1`, whatever edges come, the block keeps waiting for it; in each cycle
each valid bit is a free bit and each valid slot a free word that answers no request, so `out_valid` is a free bit; and a
request presented so early is not in flight, but recorded as left without a response. Before that edge nothing else is decided: the form of what is unspecified,
and where such a request is recorded, are the model's choices (logs 6, 11). -/
def Obligations.SlotsUnspecifiedUntilFirstReset : Prop :=
  ∀ s t : State, 0 < s.latency → s.awaitsReset = true → step s = .next t → s.event ≠ .ok .reset →
    t.awaitsReset = true ∧ t.inflight = unspecifiedSlots t.tick s.latency ∧ t.tick = s.tick + 1 ∧
    t.responsePresent = Config.powerUpValid t.tick (s.latency - 1) ∧
    (t.responsePresent = true → t.outputWord = Config.powerUpWord t.tick (s.latency - 1)) ∧ t.pending = [] ∧
    ∀ i, s.event = .ok (.request i) → i ∈ t.discarded

/-- R12, R20, R98: a response depends on its own request and `DIV_ABS_MODE` alone: two blocks with any two histories,
signals and latencies answer the same request with the same response, and that answer is the newest of the replies given
and outstanding in each. -/
def Obligations.ResponseDependsOnRequestOnly : Prop :=
  ∀ (s₁ s₂ : State) (i : Instr), s₁.divAbsMode = s₂.divAbsMode →
    ∃ r, r = respond s₁.divAbsMode i ∧ exec i s₁ = .next (s₁.answer i r) ∧ exec i s₂ = .next (s₂.answer i r) ∧
      ∀ t₁ t₂ : State, exec i s₁ = .next t₁ → exec i s₂ = .next t₂ →
        (t₁.received ++ t₁.outstanding).getLast? = some (.answer i r) ∧
        (t₂.received ++ t₂.outstanding).getLast? = some (.answer i r)

/-! ### Invariants -/

/-- R28, R98: every step keeps the invariant that each reply in flight or given is the response to its own request. A
reply that answers no request (logs 6, 7, DESIGN CHOICE: an unspecified word before the first reset, or of a read of
changing inputs) is not constrained. -/
def Obligations.EveryStepKeepsRepliesHonest : Prop :=
  ∀ s t : State, s.Honest → step s = .next t → t.Honest

/-- The invariant of `EveryStepKeepsRepliesHonest` holds after reset and at power-up. R31 and R94 leave the slots
unspecified at power-up; that half holds because the model fills them with free words that answer no request (log 6,
DESIGN CHOICE). -/
def Obligations.ResetRepliesAreHonest : Prop :=
  ∀ (mode : DivAbsMode) (latency : Nat),
    (State.resetWith mode latency).Honest ∧ (State.powerUp mode latency).Honest

/-- R73, R94, R100: with EXACT, a run that is clean stays clean at every step that reads no changing inputs, resets the
block with no request in flight that it would lose, and presents no request before the first reset; and a clean run that
has ended has ended well. What spoils a run beyond R100's words is the model's choice (log 11). -/
def Obligations.ExactRunStaysClean : Prop :=
  (∀ s t : State, s.Clean → step s = .next t → s.event ≠ .ok .unsteadyRead →
    (s.event = .ok .reset → s.inflight.dropLast.filterMap slotRequest = []) →
    (∀ i, s.event = .ok (.request i) → s.Booted) → t.Clean) ∧
  ∀ s : State, s.Clean → s.ended = true → s.endsWell = true

/-- R101: only a block without slots is read while its inputs change, so every step keeps the invariant that no slot holds
such a reply (log 7), which holds after reset and at power-up. -/
def Obligations.UnsteadyRepliesAreNeverInFlight : Prop :=
  (∀ s t : State, s.NoUnsteadySlot → step s = .next t → t.NoUnsteadySlot) ∧
  ∀ (mode : DivAbsMode) (latency : Nat),
    (State.resetWith mode latency).NoUnsteadySlot ∧ (State.powerUp mode latency).NoUnsteadySlot

/-- R100: a run whose host issues a request now, reads, or has a request in flight has not ended; a run that has ended
goes on without stopping, stays ended, and ends as well as it did; and a run with a fault response does not end well,
whatever follows. What the host's script and record are, and that a host of a combinational block issues a request by
reading, is the model's (logs 1, 9, 11); the premise on the slots is the invariant of `UnsteadyRepliesAreNeverInFlight`. -/
def Obligations.EndedRunStaysEnded : Prop :=
  (∀ (s : State) (i : Instr), (s.event = .ok (.request i) ∨ i ∈ s.pending) → s.ended = false) ∧
  (∀ s : State, s.event = .ok .unsteadyRead → s.ended = false) ∧
  (∀ s : State, s.NoUnsteadySlot → s.ended = true → ∃ t, step s = .next t ∧ t.ended = true ∧ t.endsWell = s.endsWell) ∧
  ∀ (s t : State) (i : Instr) (c : Cause), .answer i (.fault c) ∈ s.received → step s = .next t →
    .answer i (.fault c) ∈ t.received ∧ t.endsWell = false

/-! ### The host -/

/-- 00_scope.md section 6, D20: `fromFloat` of a finite value is `x * 65536` rounded toward zero when that product is in
range; it has no result when the product is out of range or `x` is not finite. The layout of binary64 is the model's
(PRESUMED, log 16). -/
def Obligations.FromFloatTruncatesTowardZero : Prop :=
  ∀ x : Binary64,
    (x.isFinite = false → fromFloat x = .error .notFinite) ∧
    (x.isFinite = true →
      let y : ℚ := (x.significand : ℚ) * 2 ^ ((x.scale : ℤ) - 1075) * 65536
      (((int32Min : ℚ) ≤ y ∧ y ≤ (int32Max : ℚ)) →
        ∃ r, fromFloat x = .ok r ∧ r.toInt = if y < 0 then ⌈y⌉ else ⌊y⌋) ∧
      ((y < (int32Min : ℚ) ∨ (int32Max : ℚ) < y) → fromFloat x = .error .outsideRawRange))

/-- 00_scope.md section 6: `toFloat` is exactly `v / 65536`, and `fromFloat` gives `v` back. The layout of binary64 is the
model's (PRESUMED, log 16). -/
def Obligations.ToFloatIsExactAndRoundTrips : Prop :=
  ∀ v : Word, (toFloat v).isFinite = true ∧
    ((toFloat v).significand : ℚ) * 2 ^ (((toFloat v).scale : ℤ) - 1075) = (v.toInt : ℚ) / 65536 ∧
    fromFloat (toFloat v) = .ok v

/-- R51: FXCONST and FXRAW bind a raw value on the host and send nothing to the block; FXRAW's integer must be in range. -/
def Obligations.PseudoInstructionsBindHostValues : Prop :=
  ∀ (mode : DivAbsMode) (env : HostValues) (d : Nat),
    (∀ n x, (HostLine.fxraw d n).sends env = .ok none ∧ (HostLine.fxconst d x).sends env = .ok none) ∧
    (∀ n : Int, int32Min ≤ n → n ≤ int32Max →
      ∃ r : Word, r.toInt = n ∧ (HostLine.fxraw d n).run mode env = .ok ((d, r) :: env)) ∧
    (∀ n : Int, n < int32Min ∨ int32Max < n → (HostLine.fxraw d n).run mode env = .error (.outsideRawRange n)) ∧
    (∀ x r, fromFloat x = .ok r → (HostLine.fxconst d x).run mode env = .ok ((d, r) :: env)) ∧
    (∀ x e, fromFloat x = .error e → (HostLine.fxconst d x).run mode env = .error (.conversion e))

/-- R73, R86, R100: with EXACT no host program ends on an arithmetic fault; in either mode a fault response to any request
line, with or without a binding (R50), ends the program badly, whatever follows. -/
def Obligations.FaultsEndHostProgramsBadly : Prop :=
  (∀ (prog : List HostLine) (env : HostValues) (c : Cause),
    runHostProgram .exact env prog ≠ .error (.arithmeticFault c)) ∧
  ∀ (mode : DivAbsMode) (before after : List HostLine) (env env' : HostValues) (line : HostLine) (op : BitVec 1)
    (x y : Operand) (i : Instr) (c : Cause),
    (line = .send op x y ∨ ∃ d, line = .bind d op x y) →
    runHostProgram mode env before = .ok env' → requestOf env' op x y = .ok i → respond mode i = .fault c →
    runHostProgram mode env (before ++ line :: after) = .error (.arithmeticFault c)
end

