-- ==== Sys2Proof/Laws/State.lean ====
section
/-! SUPPORT. One lemma per field of State for each shared operation, and the fields of the reset state, so that no
later proof unfolds a record update. -/

namespace Sys2Proof.Machine

@[simp] theorem State.advance_divAbsMode (x : Option Reply) (s : State) :
    (s.advance x).divAbsMode = s.divAbsMode := rfl
@[simp] theorem State.advance_inflight (x : Option Reply) (s : State) :
    (s.advance x).inflight = (x :: s.inflight).dropLast := rfl
@[simp] theorem State.advance_pins (x : Option Reply) (s : State) :
    (s.advance x).pins = s.pins := rfl
@[simp] theorem State.advance_script (x : Option Reply) (s : State) :
    (s.advance x).script = s.script := rfl
@[simp] theorem State.advance_received (x : Option Reply) (s : State) :
    (s.advance x).received = s.received ++ (s.inflight.getLastD x).toList := rfl
@[simp] theorem State.advance_discarded (x : Option Reply) (s : State) :
    (s.advance x).discarded = s.discarded := rfl
@[simp] theorem State.advance_awaitsReset (x : Option Reply) (s : State) :
    (s.advance x).awaitsReset = s.awaitsReset := rfl
@[simp] theorem State.advance_tick (x : Option Reply) (s : State) :
    (s.advance x).tick = s.tick := rfl

@[simp] theorem State.answer_divAbsMode (i : Instr) (r : Response) (s : State) :
    (s.answer i r).divAbsMode = s.divAbsMode := rfl
@[simp] theorem State.answer_inflight (i : Instr) (r : Response) (s : State) :
    (s.answer i r).inflight = (some (Reply.answer i r) :: s.inflight).dropLast := rfl
@[simp] theorem State.answer_pins (i : Instr) (r : Response) (s : State) :
    (s.answer i r).pins = s.pins := rfl
@[simp] theorem State.answer_script (i : Instr) (r : Response) (s : State) :
    (s.answer i r).script = s.script := rfl
@[simp] theorem State.answer_received (i : Instr) (r : Response) (s : State) :
    (s.answer i r).received = s.received ++ (s.inflight.getLastD (some (.answer i r))).toList := rfl
@[simp] theorem State.answer_discarded (i : Instr) (r : Response) (s : State) :
    (s.answer i r).discarded = s.discarded := rfl
@[simp] theorem State.answer_awaitsReset (i : Instr) (r : Response) (s : State) :
    (s.answer i r).awaitsReset = s.awaitsReset := rfl
@[simp] theorem State.answer_tick (i : Instr) (r : Response) (s : State) :
    (s.answer i r).tick = s.tick := rfl

@[simp] theorem State.raiseArithmeticFault_divAbsMode (i : Instr) (c : Cause) (s : State) :
    (s.raiseArithmeticFault i c).divAbsMode = s.divAbsMode := rfl
@[simp] theorem State.raiseArithmeticFault_inflight (i : Instr) (c : Cause) (s : State) :
    (s.raiseArithmeticFault i c).inflight = (some (Reply.answer i (.fault c)) :: s.inflight).dropLast := rfl
@[simp] theorem State.raiseArithmeticFault_pins (i : Instr) (c : Cause) (s : State) :
    (s.raiseArithmeticFault i c).pins = s.pins := rfl
@[simp] theorem State.raiseArithmeticFault_script (i : Instr) (c : Cause) (s : State) :
    (s.raiseArithmeticFault i c).script = s.script := rfl
@[simp] theorem State.raiseArithmeticFault_received (i : Instr) (c : Cause) (s : State) :
    (s.raiseArithmeticFault i c).received = s.received ++ (s.inflight.getLastD (some (.answer i (.fault c)))).toList := rfl
@[simp] theorem State.raiseArithmeticFault_discarded (i : Instr) (c : Cause) (s : State) :
    (s.raiseArithmeticFault i c).discarded = s.discarded := rfl
@[simp] theorem State.raiseArithmeticFault_awaitsReset (i : Instr) (c : Cause) (s : State) :
    (s.raiseArithmeticFault i c).awaitsReset = s.awaitsReset := rfl
@[simp] theorem State.raiseArithmeticFault_tick (i : Instr) (c : Cause) (s : State) :
    (s.raiseArithmeticFault i c).tick = s.tick := rfl

@[simp] theorem State.resetEdge_divAbsMode (s : State) :
    (s.resetEdge).divAbsMode = s.divAbsMode := rfl
@[simp] theorem State.resetEdge_inflight (s : State) :
    (s.resetEdge).inflight = List.replicate s.latency none := rfl
@[simp] theorem State.resetEdge_pins (s : State) :
    (s.resetEdge).pins = s.pins := rfl
@[simp] theorem State.resetEdge_script (s : State) :
    (s.resetEdge).script = s.script := rfl
@[simp] theorem State.resetEdge_received (s : State) :
    (s.resetEdge).received = s.received ++ (s.inflight.getLastD none).toList := rfl
@[simp] theorem State.resetEdge_discarded (s : State) :
    (s.resetEdge).discarded = s.discarded ++ s.inflight.dropLast.reverse.filterMap slotRequest := rfl
@[simp] theorem State.resetEdge_awaitsReset (s : State) :
    (s.resetEdge).awaitsReset = false := rfl
@[simp] theorem State.resetEdge_tick (s : State) :
    (s.resetEdge).tick = s.tick := rfl

@[simp] theorem State.readUnsteady_divAbsMode (s : State) :
    (s.readUnsteady).divAbsMode = s.divAbsMode := rfl
@[simp] theorem State.readUnsteady_inflight (s : State) :
    (s.readUnsteady).inflight = (some (Reply.unsteady (Config.freeWord s.tick)) :: s.inflight).dropLast := rfl
@[simp] theorem State.readUnsteady_pins (s : State) :
    (s.readUnsteady).pins = s.pins := rfl
@[simp] theorem State.readUnsteady_script (s : State) :
    (s.readUnsteady).script = s.script := rfl
@[simp] theorem State.readUnsteady_received (s : State) :
    (s.readUnsteady).received = s.received ++ (s.inflight.getLastD (some (.unsteady (Config.freeWord s.tick)))).toList := rfl
@[simp] theorem State.readUnsteady_discarded (s : State) :
    (s.readUnsteady).discarded = s.discarded := rfl
@[simp] theorem State.readUnsteady_awaitsReset (s : State) :
    (s.readUnsteady).awaitsReset = s.awaitsReset := rfl
@[simp] theorem State.readUnsteady_tick (s : State) :
    (s.readUnsteady).tick = s.tick := rfl

@[simp] theorem State.nextCycle_divAbsMode (s : State) :
    (s.nextCycle).divAbsMode = s.divAbsMode := rfl
@[simp] theorem State.nextCycle_inflight (s : State) :
    (s.nextCycle).inflight =
      if s.awaitsReset then unspecifiedSlots (s.tick + 1) s.latency else s.inflight := rfl
@[simp] theorem State.nextCycle_pins (s : State) :
    (s.nextCycle).pins = s.script.headD s.pins.rest := rfl
@[simp] theorem State.nextCycle_script (s : State) :
    (s.nextCycle).script = s.script.tail := rfl
@[simp] theorem State.nextCycle_received (s : State) :
    (s.nextCycle).received = s.received := rfl
@[simp] theorem State.nextCycle_discarded (s : State) :
    (s.nextCycle).discarded =
      if s.awaitsReset then s.discarded ++ s.inflight.reverse.filterMap slotRequest else s.discarded := rfl
@[simp] theorem State.nextCycle_awaitsReset (s : State) :
    (s.nextCycle).awaitsReset = s.awaitsReset := rfl
@[simp] theorem State.nextCycle_tick (s : State) :
    (s.nextCycle).tick = s.tick + 1 := rfl

@[simp] theorem State.withFetchWord_divAbsMode (s : State) (nbits w : Nat) :
    (s.withFetchWord nbits w).divAbsMode = s.divAbsMode := rfl
@[simp] theorem State.withFetchWord_inflight (s : State) (nbits w : Nat) :
    (s.withFetchWord nbits w).inflight = s.inflight := rfl
@[simp] theorem State.withFetchWord_pins (s : State) (nbits w : Nat) :
    (s.withFetchWord nbits w).pins = Pins.ofRequestWord (BitVec.ofNat 65 (w % 2 ^ nbits)) := rfl
@[simp] theorem State.withFetchWord_script (s : State) (nbits w : Nat) :
    (s.withFetchWord nbits w).script = s.script := rfl
@[simp] theorem State.withFetchWord_received (s : State) (nbits w : Nat) :
    (s.withFetchWord nbits w).received = s.received := rfl
@[simp] theorem State.withFetchWord_discarded (s : State) (nbits w : Nat) :
    (s.withFetchWord nbits w).discarded = s.discarded := rfl
@[simp] theorem State.withFetchWord_awaitsReset (s : State) (nbits w : Nat) :
    (s.withFetchWord nbits w).awaitsReset = s.awaitsReset := rfl
@[simp] theorem State.withFetchWord_tick (s : State) (nbits w : Nat) :
    (s.withFetchWord nbits w).tick = s.tick := rfl

@[simp] theorem State.resetWith_divAbsMode (m : DivAbsMode) (n : Nat) :
    (State.resetWith m n).divAbsMode = m := rfl
@[simp] theorem State.resetWith_inflight (m : DivAbsMode) (n : Nat) :
    (State.resetWith m n).inflight = List.replicate n none := rfl
@[simp] theorem State.resetWith_pins (m : DivAbsMode) (n : Nat) :
    (State.resetWith m n).pins = Pins.resting := rfl
@[simp] theorem State.resetWith_script (m : DivAbsMode) (n : Nat) :
    (State.resetWith m n).script = [] := rfl
@[simp] theorem State.resetWith_received (m : DivAbsMode) (n : Nat) :
    (State.resetWith m n).received = [] := rfl
@[simp] theorem State.resetWith_discarded (m : DivAbsMode) (n : Nat) :
    (State.resetWith m n).discarded = [] := rfl
@[simp] theorem State.resetWith_awaitsReset (m : DivAbsMode) (n : Nat) :
    (State.resetWith m n).awaitsReset = false := rfl
@[simp] theorem State.resetWith_tick (m : DivAbsMode) (n : Nat) :
    (State.resetWith m n).tick = 0 := rfl

@[simp] theorem State.powerUp_divAbsMode (m : DivAbsMode) (n : Nat) :
    (State.powerUp m n).divAbsMode = m := rfl
@[simp] theorem State.powerUp_inflight (m : DivAbsMode) (n : Nat) :
    (State.powerUp m n).inflight = unspecifiedSlots 0 n := rfl
@[simp] theorem State.powerUp_pins (m : DivAbsMode) (n : Nat) :
    (State.powerUp m n).pins = Pins.resting := rfl
@[simp] theorem State.powerUp_script (m : DivAbsMode) (n : Nat) :
    (State.powerUp m n).script = [] := rfl
@[simp] theorem State.powerUp_received (m : DivAbsMode) (n : Nat) :
    (State.powerUp m n).received = [] := rfl
@[simp] theorem State.powerUp_discarded (m : DivAbsMode) (n : Nat) :
    (State.powerUp m n).discarded = [] := rfl
@[simp] theorem State.powerUp_awaitsReset (m : DivAbsMode) (n : Nat) :
    (State.powerUp m n).awaitsReset = true := rfl
@[simp] theorem State.powerUp_tick (m : DivAbsMode) (n : Nat) :
    (State.powerUp m n).tick = 0 := rfl

end Sys2Proof.Machine
end

