-- ==== Sys2Proof/Laws/Ops.lean ====
section
/-! SUPPORT. What each shared operation can do, said once: the number of slots, what is delivered, what is outstanding;
what an event is; what one step does. -/

namespace Sys2Proof.Machine

/-! ### LATENCY is kept -/

@[simp] theorem State.latency_advance (x : Option Reply) (s : State) : (s.advance x).latency = s.latency := by
  simp [State.latency]

@[simp] theorem State.latency_answer (i : Instr) (r : Response) (s : State) : (s.answer i r).latency = s.latency :=
  State.latency_advance _ s

@[simp] theorem State.latency_readUnsteady (s : State) : s.readUnsteady.latency = s.latency :=
  State.latency_advance _ s

@[simp] theorem State.latency_resetEdge (s : State) : s.resetEdge.latency = s.latency := by
  simp [State.latency]

@[simp] theorem unspecifiedSlots_length (tick latency : Nat) : (unspecifiedSlots tick latency).length = latency := by
  simp [unspecifiedSlots]

@[simp] theorem State.latency_nextCycle (s : State) : s.nextCycle.latency = s.latency := by
  by_cases h : s.awaitsReset = true <;> simp [State.latency, h]

@[simp] theorem State.latency_resetWith (m : DivAbsMode) (n : Nat) : (State.resetWith m n).latency = n := by
  simp [State.latency]

@[simp] theorem State.latency_powerUp (m : DivAbsMode) (n : Nat) : (State.powerUp m n).latency = n := by
  simp [State.latency]

/-! ### The slots -/

/-- Before the first reset a slot holds nothing or a leftover word: no request. -/
theorem mem_unspecifiedSlots {x : Reply} {tick latency : Nat} (h : some x ∈ unspecifiedSlots tick latency) :
    ∃ w, x = .leftover w := by
  obtain ⟨k, -, hk⟩ := List.mem_map.mp h
  split at hk
  · exact ⟨_, (Option.some.inj hk).symm⟩
  · cases hk

/-- Once booted, the passage to the next cycle touches neither the slots nor what was discarded. -/
theorem State.nextCycle_of_booted {s : State} (h : s.Booted) :
    s.nextCycle.inflight = s.inflight ∧ s.nextCycle.discarded = s.discarded := by
  obtain h | h := h
  · have h' := List.eq_nil_of_length_eq_zero h
    by_cases hr : s.awaitsReset = true <;> simp [hr, h', unspecifiedSlots, State.latency]
  · simp [h]

/-- With no slots, what enters is delivered; nothing is in flight. -/
theorem State.advance_of_inflight_nil {s : State} (h : s.inflight = []) (x : Option Reply) :
    (s.advance x).inflight = [] ∧ (s.advance x).received = s.received ++ x.toList := by
  simp [h]

/-- With slots, the last is delivered and what enters comes first. -/
theorem State.advance_of_inflight_append {s : State} {l : List (Option Reply)} {y : Option Reply}
    (h : s.inflight = l ++ [y]) (x : Option Reply) :
    (s.advance x).inflight = x :: l ∧ (s.advance x).received = s.received ++ y.toList := by
  constructor
  · rw [State.advance_inflight, h, ← List.cons_append, List.dropLast_concat]
  · simp [h, List.getLastD_eq_getLast?]

/-- What is delivered and what is outstanding, together, grow by what enters: nothing is lost, doubled or reordered. -/
theorem State.received_outstanding_advance (x : Option Reply) (s : State) :
    (s.advance x).received ++ (s.advance x).outstanding = s.received ++ s.outstanding ++ x.toList := by
  rcases List.eq_nil_or_concat s.inflight with h | ⟨l, y, h⟩
  · obtain ⟨h₁, h₂⟩ := State.advance_of_inflight_nil h x
    rw [State.outstanding, State.outstanding, h₁, h₂, h]
    simp
  · rw [List.concat_eq_append] at h
    obtain ⟨h₁, h₂⟩ := State.advance_of_inflight_append h x
    rw [State.outstanding, State.outstanding, h₁, h₂, h]
    cases x <;> cases y <;> simp

/-- A slot after an edge is the entering one or was a slot before. -/
theorem State.mem_inflight_advance {x y : Option Reply} {s : State} (h : y ∈ (s.advance x).inflight) :
    y = x ∨ y ∈ s.inflight := by
  have := List.dropLast_subset _ h
  simpa using this

/-- What is delivered at an edge was received before, or was in a slot, or is the entering reply. -/
theorem State.mem_received_advance {x : Option Reply} {y : Reply} {s : State} (h : y ∈ (s.advance x).received) :
    y ∈ s.received ∨ some y ∈ s.inflight ∨ x = some y := by
  rcases List.eq_nil_or_concat s.inflight with h' | ⟨l, z, h'⟩
  · rw [(State.advance_of_inflight_nil h' x).2] at h
    simp at h
    tauto
  · rw [List.concat_eq_append] at h'
    rw [(State.advance_of_inflight_append h' x).2] at h
    simp at h
    rw [h']
    simp
    tauto

/-- A block without slots holds no reply of changing inputs, nor any other. -/
theorem State.noUnsteadySlot_of_no_slots {s : State} (h : s.latency = 0) : s.NoUnsteadySlot := by
  simp [State.NoUnsteadySlot, List.eq_nil_of_length_eq_zero h]

/-! ### Executing a request -/

/-- An instruction always completes, and its one effect is that its own request is answered (R12, R20). -/
theorem exec_eq (i : Instr) (s : State) : exec i s = .next (s.answer i (respond s.divAbsMode i)) := by
  cases i with
  | fxmul a b => rfl
  | fxdiv a b =>
    simp only [exec, execFxdiv, respond]
    cases divOutcome s.divAbsMode a b <;> rfl

/-! ### One step -/

/-- The four things a step can do. -/
theorem step_cases {s t : State} (h : step s = .next t) :
    (s.event = .ok .reset ∧ t = s.resetEdge.nextCycle) ∨
    (s.event = .ok .idle ∧ t = (s.advance none).nextCycle) ∨
    (s.event = .ok .unsteadyRead ∧ t = s.readUnsteady.nextCycle) ∨
    (∃ i, s.event = .ok (.request i) ∧ t = (s.answer i (respond s.divAbsMode i)).nextCycle) := by
  unfold step at h
  split at h
  · cases h
  · exact .inl ⟨‹_›, by simpa using h.symm⟩
  · exact .inr (.inl ⟨‹_›, by simpa using h.symm⟩)
  · exact .inr (.inr (.inl ⟨‹_›, by simpa using h.symm⟩))
  · rename_i i hi
    rw [exec_eq] at h
    exact .inr (.inr (.inr ⟨i, hi, by simpa using h.symm⟩))

/-- A step stops only where the sampled inputs have no meaning. -/
theorem step_fault_iff (s : State) (f : Fault) : step s = .fault f ↔ s.event = .error f := by
  unfold step
  cases h : s.event with
  | error g => simp
  | ok e => cases e <;> simp [exec_eq]

end Sys2Proof.Machine
end

