-- ==== Sys2Proof/Laws/WellFormed.lean ====
section
/-! SUPPORT. Every request is well formed, and what the range checks say. -/

namespace Sys2Proof.Laws.WellFormed

theorem fitsRaw_iff (n : Int) : fitsRaw n = true ↔ int32Min ≤ n ∧ n ≤ int32Max := by
  simp [fitsRaw]

theorem fitsRaw_toInt (w : Word) : fitsRaw w.toInt = true := by
  have h₁ := BitVec.toInt_lt (x := w)
  have h₂ := BitVec.le_toInt (x := w)
  rw [fitsRaw_iff]
  constructor <;> simp only [int32Min, int32Max] <;> omega

theorem fitsRequest_iff (n : Nat) : fitsRequest n = true ↔ n < 2 ^ 65 := by
  simp [fitsRequest]

/-- No operand value is refused (R16), so no request is ill formed (R48). -/
theorem instr_wellFormed (i : Instr) : i.wellFormed = true := by
  cases i <;> simp [Instr.wellFormed, fitsRaw_toInt]

end Sys2Proof.Laws.WellFormed
end

