-- ==== Sys2Proof/Laws/PerInstr.lean ====
section
/-! SUPPORT. The per-instruction families of LAWS.json. -/

namespace Sys2Proof

/-- The operands of a request, first and second (R14, R43). -/
def Laws.Fields.operands : Instr → Word × Word
  | .fxmul a b => (a, b)
  | .fxdiv a b => (a, b)

/-- The word of a request carries its operands unchanged in the fields `a` and `b` (R43, R45). -/
def Laws.Fields.Statement (i : Instr) : Prop :=
  i.wellFormed = true ∧ requestA (encode i) = (Laws.Fields.operands i).1 ∧ requestB (encode i) = (Laws.Fields.operands i).2

theorem Laws.Fields.requestA_requestWord (op : BitVec 1) (a b : Word) : requestA (requestWord op a b) = a := by
  unfold requestA requestWord
  ext j hj
  simp only [BitVec.getElem_extractLsb', BitVec.getLsbD_append]
  rw [if_neg (by omega), if_pos (by omega)]
  simp only [Nat.add_sub_cancel_left]
  exact (BitVec.getElem_eq_testBit_toNat a j hj).symm ▸ rfl

theorem Laws.Fields.requestB_requestWord (op : BitVec 1) (a b : Word) : requestB (requestWord op a b) = b := by
  unfold requestB requestWord
  ext j hj
  simp only [BitVec.getElem_extractLsb', BitVec.getLsbD_append, Nat.zero_add]
  rw [if_pos (by omega)]
  exact (BitVec.getElem_eq_testBit_toNat b j hj).symm ▸ rfl

theorem Laws.Fields.fxmul (a b : Word) : Laws.Fields.Statement (.fxmul a b) :=
  ⟨Laws.WellFormed.instr_wellFormed _, requestA_requestWord _ _ _, requestB_requestWord _ _ _⟩

theorem Laws.Fields.fxdiv (a b : Word) : Laws.Fields.Statement (.fxdiv a b) :=
  ⟨Laws.WellFormed.instr_wellFormed _, requestA_requestWord _ _ _, requestB_requestWord _ _ _⟩

end Sys2Proof
end

