-- ==== Sys2Proof/Tests/Slice0.lean ====
section
/-! SUPPORT. The model's own tests: decode words written out from spec/30_encoding.md, one-step results from
spec/95_test_vectors.md, the well-formedness smoke test, and for each statement of Obligations.lean that has hypotheses a
witness that meets them. -/

namespace Sys2Proof.Tests

open Sys2Proof Sys2Proof.Machine

/-! ### Well-formedness: each check refuses an ill-formed term -/

theorem test_fitsRaw_refuses : fitsRaw 2147483648 = false ∧ fitsRaw (-2147483649) = false ∧
    fitsRaw 2147483647 = true ∧ fitsRaw (-2147483648) = true := by decide

theorem test_fitsRequest_refuses : fitsRequest (2 ^ 65) = false ∧ fitsRequest (2 ^ 65 - 1) = true := by decide

/-! ### Decoding: op at bit 64, a at 63:32, b at 31:0 (R43), written out bit by bit -/

theorem test_decode_fxmul_word :
    decode (0b0#1 ++ 0b00000000000000011000000000000000#32 ++ 0b11111111111111110000000000000000#32) =
      .fxmul 0x00018000#32 0xFFFF0000#32 := by decide

theorem test_decode_fxdiv_word :
    decode (0b1#1 ++ 0b01111111111111111111111111111111#32 ++ 0b00000000000000000000000000000001#32) =
      .fxdiv 0x7FFFFFFF#32 0x00000001#32 := by decide

theorem test_decodeTableWord : decodeTableWord 72 0x10000000000000002 = some (.fxdiv 0#32 2#32) ∧
    decodeTableWord 72 0x00000000300000000 = some (.fxmul 3#32 0#32) ∧ decodeTableWord 72 (2 ^ 65) = none := by decide

/-! ### One step on the spec's own vectors (spec/95_test_vectors.md sections 2 to 4) -/

/-- The response that one step of a combinational block gives the request `i`. -/
def answerOf (mode : DivAbsMode) (i : Instr) : Option Reply :=
  match step { State.resetWith mode 0 with pins := Pins.ofRequestWord (encode i) } with
  | .next t => t.received.head?
  | _ => none

/-- Each request of the table gets the response beside it. -/
def agrees (mode : DivAbsMode) (rows : List (Instr × Response)) : Bool :=
  rows.all fun r => decide (answerOf mode r.1 = some (.answer r.1 r.2))

/-- MUL-5, MUL-7, MUL-10, MUL-12, MUL-14, MUL-19, MUL-24 of section 2. -/
theorem test_fxmul_vectors : agrees .exact
   [(.fxmul 0x00018000#32 0x00018000#32, .value 0x00024000#32),
    (.fxmul 0xFFFFFFFF#32 0x00000001#32, .value 0xFFFFFFFF#32),
    (.fxmul 0xFFFEFFFF#32 0x00000001#32, .value 0xFFFFFFFE#32),
    (.fxmul 0xFFFE8000#32 0x00018000#32, .value 0xFFFDC000#32),
    (.fxmul 0x7FFFFFFF#32 0x7FFFFFFF#32, .value 0xFFFF0000#32),
    (.fxmul 0x80000000#32 0xFFFF0000#32, .value 0x80000000#32),
    (.fxmul 0x004BC000#32 0x00641999#32, .value 0x1D9E9305#32)] = true := by decide

/-- DIV-2, DIV-3, DIV-8, DIV-9, DIV-11, DIV-13, DIV-21, DIV-24, DIV-27, DIV-29, DIV-33 of section 3. -/
theorem test_fxdiv_exact_vectors : agrees .exact
   [(.fxdiv 0xFFFF0000#32 0x00000000#32, .value 0x80000000#32),
    (.fxdiv 0x00000000#32 0x00000000#32, .value 0x7FFFFFFF#32),
    (.fxdiv 0xFFFF0000#32 0x00030000#32, .value 0xFFFFAAAB#32),
    (.fxdiv 0x00030000#32 0xFFFE0000#32, .value 0xFFFE8000#32),
    (.fxdiv 0x40000000#32 0x00010000#32, .value 0x7FFFFFFF#32),
    (.fxdiv 0x00003FFF#32 0x00000001#32, .value 0x3FFF0000#32),
    (.fxdiv 0x80000000#32 0xFFFF0000#32, .value 0x7FFFFFFF#32),
    (.fxdiv 0x80000000#32 0x00020001#32, .value 0xC0002000#32),
    (.fxdiv 0x7FFFFFFF#32 0x80000000#32, .value 0xFFFF0001#32),
    (.fxdiv 0x7FFFFFFF#32 0xFFFE0000#32, .value 0xC0000001#32),
    (.fxdiv 0x004BC000#32 0x00641999#32, .value 0x0000C1B9#32)] = true := by decide

/-- DIVW-1, DIVW-2, DIVW-5, DIVW-7, DIVW-11 of section 4. -/
theorem test_fxdiv_wrap32_vectors : agrees .wrap32
   [(.fxdiv 0x80000000#32 0x80000000#32, .value 0x7FFFFFFF#32),
    (.fxdiv 0x80000000#32 0x00000001#32, .fault .rangeOverflow),
    (.fxdiv 0x80000000#32 0x00000000#32, .fault .zeroDivisor),
    (.fxdiv 0x80000000#32 0xFFFEFFFF#32, .value 0x7FFF8000#32),
    (.fxdiv 0x00000005#32 0x80000000#32, .value 0x80000000#32)] = true := by decide

/-- From `State.reset`, a placed request is run by the very next step, and its response (MUL-5) is on the outputs. -/
theorem test_reset_runs_placed_request :
    ∃ t, step (State.reset.withFetchWord 72 0x00001800000018000) = .next t ∧
      t.responsePresent = true ∧ t.faultPin = 0#1 ∧ t.resultPin = 0x00024000#32 :=
  ⟨_, rfl, by decide, by decide, by decide⟩

/-- Edge E4 of program P6 (section 5): at the reset edge R2's response is delivered and R3 is discarded. -/
theorem test_reset_edge_delivers_and_discards :
    ∃ t, step { State.resetWith .exact 2 with
      inflight := [some (.answer (.fxdiv 1#32 3#32) (.value 0x5555#32)),
        some (.answer (.fxdiv 0x10000#32 0#32) (.value 0x7FFFFFFF#32))]
      pins := { Pins.ofRequestWord (encode (.fxdiv 0x30000#32 0x20000#32)) with rst := some true } } = .next t ∧
      t.received = [.answer (.fxdiv 0x10000#32 0#32) (.value 0x7FFFFFFF#32)] ∧
      t.discarded = [.fxdiv 1#32 3#32] ∧ t.responsePresent = false :=
  ⟨_, rfl, by decide, by decide, by decide⟩

/-- R46's fault responses: `0x3` RANGE_OVERFLOW, `0x5` ZERO_DIVISOR in bits 34:32. -/
theorem test_fault_response_words :
    encodeResponse (.fault .rangeOverflow) 0#32 = 0x300000000#35 ∧
    encodeResponse (.fault .zeroDivisor) 0#32 = 0x500000000#35 := by decide

/-- R17's example: 100.1 is 6560153, and its binary64 pattern is 0x4059066666666666. -/
theorem test_fxconst_example :
    assembleLine "v1 = fxconst 100.1".toList = some (.fxconst 1 0x4059066666666666#64) ∧
    fromFloat 0x4059066666666666#64 = .ok 6560153#32 := ⟨by decide, by rfl⟩

/-! ### Witnesses: the hypotheses of each statement can be met, at the boundary values of each clause -/

/-- A block of the given build with the given signals. -/
def block (mode : DivAbsMode) (latency : Nat) (p : Pins) : State := { State.resetWith mode latency with pins := p }

/-- The signals of a request. -/
def asking (i : Instr) : Pins := Pins.ofRequestWord (encode i)

theorem witness_RequestWordRoundTrip : (Instr.fxdiv minWord 0#32).wellFormed = true := by decide

theorem witness_ExactlyTheSixtyFiveBitWordsDecode : 2 ^ 65 - 1 < 2 ^ 65 ∧ 2 ^ 65 ≤ 2 ^ 65 := by decide

theorem witness_ResponseWordRoundTrip : (0x600000000#35).extractLsb' 33 2 = 0b11#2 := by decide

theorem witness_WrappingNarrowKeepsLowBits :
    int32Min ≤ (BitVec.ofInt 64 int32Min).toInt ∧ (BitVec.ofInt 64 int32Max).toInt ≤ int32Max := by decide

theorem witness_CheckedNarrowFaultsOutOfRange :
    (BitVec.ofInt 64 (int32Min - 1)).toInt < int32Min ∧ (BitVec.ofInt 64 (int32Max + 1)).toInt > int32Max ∧
    int32Min ≤ (BitVec.ofInt 64 int32Min).toInt ∧ (BitVec.ofInt 64 int32Max).toInt ≤ int32Max := by decide

theorem witness_DividerTruncatesTowardZero :
    (1#64 ≠ 0#64 ∧ ¬((7#64).toInt = -2 ^ 63 ∧ (1#64).toInt = -1)) ∧ minWord ≠ 0#32 := by decide

theorem witness_FxmulAlgebraicLaws :
    (int32Min ≤ Int.fdiv ((0x10000#32).toInt * (1#32).toInt) 65536 ∧
      Int.fdiv ((0x10000#32).toInt * (1#32).toInt) 65536 ≤ int32Max ∧ 65536 ≤ (0x10000#32).toInt * (1#32).toInt) ∧
    (0 ≤ (0xFFFF#32).toInt * (1#32).toInt ∧ (0xFFFF#32).toInt * (1#32).toInt < 65536) ∧
    (-65536 ≤ (0xFFFF0000#32).toInt * (1#32).toInt ∧ (0xFFFF0000#32).toInt * (1#32).toInt < 0) := by decide

theorem witness_ExactGuardComparesMagnitudes :
    1#32 ≠ 0#32 ∧ guardTrips .exact 0x4000#32 1#32 = true ∧ guardTrips .exact 0x3FFF#32 1#32 = false := by decide

theorem witness_FxdivSaturatesWhenGuardTrips :
    guardTrips (block .exact 1 Pins.resting).divAbsMode 0x7FFFFFFF#32 1#32 = true ∧
    guardTrips (block .wrap32 1 Pins.resting).divAbsMode 5#32 minWord = true := by decide

theorem witness_FxdivByZeroSaturates : (block .exact 0 Pins.resting).divAbsMode = .exact := rfl

theorem witness_FxdivComputesTruncatedQuotient :
    (block .exact 2 Pins.resting).divAbsMode = .exact ∧ guardTrips .exact 0x10000#32 0x30000#32 = false ∧
    guardTrips .exact 0x7FFFFFFF#32 minWord = false := by decide

theorem witness_ExactFxdivNeverFaults :
    (block .exact 1 Pins.resting).divAbsMode = .exact ∧ guardTrips .exact 0x7FFFFFFF#32 0x20000#32 = false ∧
    guardTrips .exact minWord 0x20000#32 = true := by decide

theorem witness_WrapModeDiffersOnlyAtMinimum :
    (0x80000001#32 ≠ minWord ∧ 0#32 ≠ minWord) ∧
    (1 ≤ (1#32).toInt ∧ (65535#32).toInt ≤ 65535 ∧ -65536 ≤ (0xFFFF0000#32).toInt ∧ (0xFFFFFFFF#32).toInt ≤ -1) ∧
    (65536 ≤ (65536#32).toInt ∧ (131072#32).toInt ≤ 131072 ∧
      -131072 ≤ (0xFFFE0000#32).toInt ∧ (0xFFFEFFFF#32).toInt ≤ -65537) ∧
    |(131073#32).toInt| > 131072 ∧ |(0xFFFDFFFF#32).toInt| > 131072 := by decide

theorem witness_FxdivPrecision :
    guardTrips .exact 0x4BC000#32 0x641999#32 = false ∧ divOutcome .exact 0x4BC000#32 0x641999#32 = .ok 0xC1B9#32 ∧
    guardTrips .wrap32 minWord 0x10000#32 = false ∧ divOutcome .wrap32 minWord 0x10000#32 = .ok minWord :=
  ⟨by decide, by rfl, by decide, by rfl⟩

theorem witness_FxdivQuotientLaws :
    minWord ≠ 0#32 ∧ |(0x3FFFFFFF#32).toInt| < 2 ^ 30 ∧ |(0x40000000#32).toInt| ≥ 2 ^ 30 ∧
    |(0xC0000000#32).toInt| ≥ 2 ^ 30 := by decide

theorem witness_FxdivNegationLaws :
    guardTrips .exact 0x10000#32 0x30000#32 = false ∧ guardTrips .exact 0x10000#32 0#32 = true ∧
    guardTrips .exact 0x7FFFFFFF#32 1#32 = true ∧ 0x10000#32 ≠ minWord ∧ 1#32 ≠ 0#32 := by decide

theorem witness_ArithmeticFaultIsLocal :
    divOutcome (block .wrap32 1 Pins.resting).divAbsMode minWord 0#32 = .error .zeroDivisor ∧
    divOutcome (block .wrap32 1 Pins.resting).divAbsMode minWord 65535#32 = .error .rangeOverflow := ⟨by rfl, by rfl⟩

theorem witness_OutputSignalsReportResponse :
    (block .exact 0 (asking (.fxdiv 1#32 0#32))).output = some (.answer (.fxdiv 1#32 0#32) (.value maxWord)) ∧
    (block .wrap32 0 (asking (.fxdiv minWord 0#32))).output =
      some (.answer (.fxdiv minWord 0#32) (.fault .zeroDivisor)) := by decide

/-- The request signals of the witnesses below. -/
theorem asking_signals (i : Instr) :
    (asking i).op = some (requestOp (encode i)) ∧ (asking i).a = some (requestA (encode i)) ∧
    (asking i).b = some (requestB (encode i)) ∧ (asking i).rst = some false ∧ (asking i).inValid = some true ∧
    (asking i).read = .steady := ⟨rfl, rfl, rfl, rfl, rfl, rfl⟩

theorem witness_StepRunsDecodedRequest :
    (block .exact 0 (asking (.fxmul 1#32 2#32))).pins.op = some 0#1 ∧
    (block .exact 0 (asking (.fxmul 1#32 2#32))).latency = 0 ∧
    (block .exact 0 (asking (.fxmul 1#32 2#32))).pins.read = .steady ∧
    0 < (block .exact 1 (asking (.fxdiv 1#32 2#32))).latency ∧
    (block .exact 1 (asking (.fxdiv 1#32 2#32))).pins.op = some 1#1 ∧
    (block .exact 1 (asking (.fxdiv 1#32 2#32))).pins.inValid = some true := by decide

theorem witness_PlacedRequestRunsNext : decodeTableWord 72 0x10000000100000003 = some (.fxdiv 1#32 3#32) := by decide

/-- Meets the hypothesis of ExecutionFrame: an instruction that answers a next state. -/
theorem witness_ExecutionFrame : ∃ t, exec (.fxdiv 1#32 3#32) State.reset = .next t := ⟨_, exec_eq _ _⟩

/-- Meets the hypothesis of BuildParametersNeverChange, StepDeliversTheOutput and RepliesInOrderExactlyOnce: a step of
each kind that answers a next state. -/
theorem witness_step_next :
    (∃ t, step (block .exact 2 Pins.resting) = .next t) ∧ (block .exact 2 Pins.resting).event = .ok .idle ∧
    (∃ t, step (block .exact 2 (asking (.fxmul 1#32 1#32))) = .next t) ∧
    (block .exact 2 (asking (.fxmul 1#32 1#32))).event = .ok (.request (.fxmul 1#32 1#32)) ∧
    (∃ t, step (block .exact 2 { Pins.resting with rst := some true }) = .next t) ∧
    (∃ t, step (block .exact 0 { Pins.resting with read := .changing }) = .next t) ∧
    (block .exact 2 Pins.resting).Booted ∧ (State.powerUp .exact 0).Booted ∧
    (∃ t, step (block .exact 0 Pins.resting) = .next t) :=
  ⟨⟨_, rfl⟩, rfl, ⟨_, rfl⟩, rfl, ⟨_, rfl⟩, ⟨_, rfl⟩, .inr rfl, .inl rfl, ⟨_, rfl⟩⟩

/-- The stop of StepStopsOnlyOnUndefinedInputs is reached: an undefined `b` under a request, and an undefined `in_valid`. -/
theorem witness_StepStopsOnlyOnUndefinedInputs :
    step (block .exact 1 { asking (.fxmul 1#32 1#32) with b := none }) = .fault (.undefinedInput .b) ∧
    step (block .exact 1 { Pins.resting with inValid := none }) = .fault (.undefinedInput .inValid) := ⟨rfl, rfl⟩

/-- Meets the hypotheses of ResponseComesLatencyEdgesLater: with `LATENCY = 2` a request is accepted, one edge without
reset follows, and nothing stops. -/
theorem witness_ResponseComesLatencyEdgesLater :
    let s := block .exact 2 (asking (.fxmul 0x18000#32 0x18000#32))
    0 < s.latency ∧ s.awaitsReset = false ∧ s.event = .ok (.request (.fxmul 0x18000#32 0x18000#32)) ∧
    ∃ t u, step s = .next t ∧ t.event = .ok .idle ∧ t.after (s.latency - 1) = some u :=
  ⟨by decide, rfl, rfl, _, _, rfl, rfl, rfl⟩

/-- A block with two slots, at an edge that accepts a request and at an idle one. -/
theorem witness_SlotsMoveOnByOne :
    0 < (block .exact 2 Pins.resting).latency ∧ (block .exact 2 Pins.resting).awaitsReset = false ∧
    0 + 1 < (block .exact 2 Pins.resting).latency ∧ (block .exact 2 Pins.resting).event = .ok .idle ∧
    (block .exact 2 (asking (.fxmul 1#32 1#32))).event = .ok (.request (.fxmul 1#32 1#32)) ∧
    (∃ t, step (block .exact 2 Pins.resting) = .next t) ∧
    ∃ t, step (block .exact 2 (asking (.fxmul 1#32 1#32))) = .next t :=
  ⟨by decide, rfl, by decide, rfl, rfl, ⟨_, rfl⟩, ⟨_, rfl⟩⟩

theorem witness_CombinationalResponseIsAlwaysPresent :
    (block .wrap32 0 (asking (.fxdiv minWord 0#32))).latency = 0 ∧
    (block .wrap32 0 (asking (.fxdiv minWord 0#32))).pins.op = some 1#1 ∧
    (block .wrap32 0 (asking (.fxdiv minWord 0#32))).pins.a = some minWord ∧
    (block .wrap32 0 (asking (.fxdiv minWord 0#32))).pins.b = some 0#32 ∧
    (block .wrap32 0 (asking (.fxdiv minWord 0#32))).pins.read ≠ .changing ∧
    (block .wrap32 0 Pins.resting).pins.read ≠ .changing := by decide

theorem witness_UnsteadyReadIsUnspecified :
    (block .exact 0 { asking (.fxmul 1#32 1#32) with read := .changing }).latency = 0 ∧
    (block .exact 0 { asking (.fxmul 1#32 1#32) with read := .changing }).pins.request = .ok (.fxmul 1#32 1#32) ∧
    (block .exact 0 { asking (.fxmul 1#32 1#32) with read := .changing }).pins.read = .changing :=
  ⟨by decide, by rfl, by rfl⟩

/-- Both ways the edge may be: with and without `in_valid`; and a block with no slots. -/
theorem witness_ResetEdgeClearsRequestsInFlight :
    0 < (block .exact 1 { Pins.resting with rst := some true }).latency ∧
    (block .exact 1 { Pins.resting with rst := some true }).pins.inValid = some false ∧
    (block .exact 1 { asking (.fxmul 1#32 1#32) with rst := some true }).pins.inValid = some true ∧
    (block .exact 1 { asking (.fxmul 1#32 1#32) with rst := some true }).pins.request = .ok (.fxmul 1#32 1#32) ∧
    (block .exact 0 Pins.resting).latency = 0 := ⟨by decide, rfl, rfl, by rfl, by decide⟩

theorem witness_NoResponseUntilRequestAccepted :
    0 < (block .exact 2 Pins.resting).latency ∧ (block .exact 2 Pins.resting).awaitsReset = false ∧
    (block .exact 2 Pins.resting).outstanding = [] ∧
    (block .exact 2 Pins.resting).event = .ok .idle ∧ ∃ t, (block .exact 2 Pins.resting).after 1 = some t :=
  ⟨by decide, rfl, by decide, by rfl, _, rfl⟩

theorem witness_ResetStateIsIdle : 0 < 1 := by decide

theorem witness_OneResetEdgeEndsPowerUp :
    0 < 1 ∧ ({ Pins.resting with rst := some true } : Pins).rst = some true ∧
    ({ Pins.resting with rst := some true } : Pins).inValid = some false ∧
    ({ asking (.fxmul 1#32 1#32) with rst := some true } : Pins).inValid = some true ∧
    ({ asking (.fxmul 1#32 1#32) with rst := some true } : Pins).request = .ok (.fxmul 1#32 1#32) :=
  ⟨by decide, rfl, rfl, rfl, by rfl⟩

/-- At power-up, an edge that presents a request, and an idle one. -/
theorem witness_SlotsUnspecifiedUntilFirstReset :
    (∃ t, step (State.powerUp .exact 1) = .next t) ∧ (State.powerUp .exact 1).event = .ok .idle ∧
    (State.powerUp .exact 1).awaitsReset = true ∧ 0 < (State.powerUp .exact 1).latency ∧
    (∃ t, step { State.powerUp .exact 1 with pins := asking (.fxmul 1#32 1#32) } = .next t) ∧
    { State.powerUp .exact 1 with pins := asking (.fxmul 1#32 1#32) }.event = .ok (.request (.fxmul 1#32 1#32)) :=
  ⟨⟨_, rfl⟩, rfl, rfl, by decide, ⟨_, rfl⟩, rfl⟩

theorem witness_ResponseDependsOnRequestOnly :
    (block .wrap32 0 Pins.resting).divAbsMode = (block .wrap32 3 (asking (.fxmul 1#32 1#32))).divAbsMode := rfl

/-- Meets the hypothesis of EveryStepKeepsRepliesHonest with a reply in flight. -/
theorem witness_EveryStepKeepsRepliesHonest :
    let s : State := { State.resetWith .exact 1 with
      inflight := [some (.answer (.fxdiv 1#32 0#32) (.value maxWord))] }
    s.Honest ∧ ∃ t, step s = .next t := by
  refine ⟨⟨fun x hx => ?_, fun x hx => ?_⟩, _, rfl⟩
  · obtain rfl : x = .answer (.fxdiv 1#32 0#32) (.value maxWord) := by simpa using hx
    exact (by decide : Response.value maxWord = respond .exact (.fxdiv 1#32 0#32))
  · simp at hx

/-- Meets the hypotheses of ExactRunStaysClean: a request after reset; a reset edge with nothing in flight; and a run that
has ended. -/
theorem witness_ExactRunStaysClean :
    (block .exact 1 (asking (.fxdiv 1#32 0#32))).Clean ∧
    (block .exact 1 (asking (.fxdiv 1#32 0#32))).event = .ok (.request (.fxdiv 1#32 0#32)) ∧
    (∃ t, step (block .exact 1 (asking (.fxdiv 1#32 0#32))) = .next t) ∧
    (block .exact 1 (asking (.fxdiv 1#32 0#32))).Booted ∧
    (block .exact 1 { Pins.resting with rst := some true }).event = .ok .reset ∧
    (block .exact 1 { Pins.resting with rst := some true }).inflight.dropLast.filterMap slotRequest = [] ∧
    (block .exact 1 Pins.resting).Clean ∧ (block .exact 1 Pins.resting).ended = true := by
  refine ⟨⟨rfl, rfl, ?_, ?_, ?_⟩, rfl, ⟨_, rfl⟩, .inr rfl, rfl, rfl, ⟨rfl, rfl, ?_, ?_, ?_⟩, by decide⟩ <;>
    simp [block]

/-- Meets the hypothesis of UnsteadyRepliesAreNeverInFlight, at a step that reads changing inputs. -/
theorem witness_UnsteadyRepliesAreNeverInFlight :
    (block .exact 0 { Pins.resting with read := .changing }).NoUnsteadySlot ∧
    ∃ t, step (block .exact 0 { Pins.resting with read := .changing }) = .next t :=
  ⟨State.noUnsteadySlot_of_no_slots rfl, _, rfl⟩

/-- Meets the hypotheses of EndedRunStaysEnded: a combinational block whose host asks, or reads changing inputs, or has
asked and got a fault; and a request in flight. -/
theorem witness_EndedRunStaysEnded :
    (block .wrap32 0 (asking (.fxdiv minWord 0#32))).event = .ok (.request (.fxdiv minWord 0#32)) ∧
    (block .exact 0 { Pins.resting with read := .changing }).event = .ok .unsteadyRead ∧
    (∃ t, step (block .wrap32 0 (asking (.fxdiv minWord 0#32))) = .next t ∧ t.NoUnsteadySlot ∧ t.ended = true ∧
      .answer (.fxdiv minWord 0#32) (.fault .zeroDivisor) ∈ t.received ∧ t.endsWell = false ∧
      ∃ u, step t = .next u) ∧
    ∃ t, step (block .exact 1 (asking (.fxmul 1#32 1#32))) = .next t ∧ .fxmul 1#32 1#32 ∈ t.pending ∧
      t.ended = false :=
  ⟨rfl, rfl, ⟨_, rfl, State.noUnsteadySlot_of_no_slots (by decide), by decide, by decide, by decide, _, rfl⟩, _, rfl, by decide, by decide⟩

/-- A finite value in range, one out of range, and an infinity. -/
theorem witness_FromFloatTruncatesTowardZero :
    Binary64.isFinite 0x4059066666666666#64 = true ∧ fromFloat 0x4059066666666666#64 = .ok 0x641999#32 ∧
    fromFloat 0x40E0000000000000#64 = .error .outsideRawRange ∧
    Binary64.isFinite 0x7FF0000000000000#64 = false := ⟨by decide, by rfl, by rfl, by decide⟩

theorem witness_PseudoInstructionsBindHostValues :
    int32Min ≤ int32Min ∧ int32Min ≤ int32Max ∧ int32Min - 1 < int32Min ∧ int32Max < int32Max + 1 ∧
    fromFloat (toFloat minWord) = .ok minWord ∧ fromFloat 0x7FF0000000000000#64 = .error .notFinite :=
  ⟨by decide, by decide, by decide, by decide, by rfl, by rfl⟩

/-- Program P5 of spec/95_test_vectors.md with WRAP32: its last line, bound or not, meets a fault. -/
theorem witness_FaultsEndHostProgramsBadly :
    runHostProgram .wrap32 [] [.fxraw 0 (-2147483648), .fxraw 1 1] = .ok [(1, 1#32), (0, minWord)] ∧
    requestOf [(1, 1#32), (0, minWord)] 1#1 (.value 0) (.value 1) = .ok (.fxdiv minWord 1#32) ∧
    respond .wrap32 (.fxdiv minWord 1#32) = .fault .rangeOverflow ∧
    runHostProgram .wrap32 [] [.fxraw 0 (-2147483648), .fxraw 1 1, .send 1#1 (.value 0) (.value 1)] =
      .error (.arithmeticFault .rangeOverflow) := ⟨by rfl, by rfl, by rfl, by rfl⟩

end Sys2Proof.Tests
end

section
/-! SUPPORT. Proof of the obligation of spec/00_scope.md (R12, R20, R98). It rests on `exec_eq`, that executing a request
does nothing but answer it with `respond`, and on `State.received_outstanding_advance`, that what enters comes last. -/

namespace Sys2Proof.Machine

/-- Whatever the history and the LATENCY, the answer just taken is the newest of the replies given and outstanding. -/
theorem State.getLast?_received_outstanding_answer (i : Instr) (r : Response) (s : State) :
    ((s.answer i r).received ++ (s.answer i r).outstanding).getLast? = some (.answer i r) := by
  rw [State.answer, State.received_outstanding_advance, Option.toList_some, List.getLast?_concat]

/-- The inversion of `exec_eq`, for the next states the obligations name. -/
theorem eq_answer_of_exec_eq_next {i : Instr} {s t : State} (h : exec i s = .next t) :
    t = s.answer i (respond s.divAbsMode i) := by
  rw [exec_eq] at h
  injection h with h
  exact h.symm

end Sys2Proof.Machine

namespace Sys2Proof

open Sys2Proof.Machine

/-- Settles O46: `respond` reads the mode and the request only, and its response enters both blocks last. -/
theorem responseDependsOnRequestOnly : Obligations.ResponseDependsOnRequestOnly := by
  intro s₁ s₂ i hmode
  refine ⟨respond s₁.divAbsMode i, rfl, exec_eq i s₁, ?_, ?_⟩
  · rw [hmode]
    exact exec_eq i s₂
  · intro t₁ t₂ h₁ h₂
    rw [eq_answer_of_exec_eq_next h₁, eq_answer_of_exec_eq_next h₂, hmode]
    exact ⟨State.getLast?_received_outstanding_answer i _ s₁, State.getLast?_received_outstanding_answer i _ s₂⟩

end Sys2Proof
end

section
/-! SUPPORT. What the obligations of spec/10_state.md rest on: when a step samples a request (R27, R28, R43), what enters
the slots at a step, and what is on the outputs (R29, R30, R97). -/

namespace Sys2Proof.Machine

/-! ### The request on the signals -/

/-- A request word is the layout of its own three fields (R43). -/
theorem requestWord_fields (w : RequestWord) : requestWord (requestOp w) (requestA w) (requestB w) = w := by
  unfold requestWord requestOp requestA requestB
  rw [BitVec.extractLsb'_append_extractLsb'_eq_extractLsb' (by rfl),
    BitVec.extractLsb'_append_extractLsb'_eq_extractLsb' (by rfl)]
  exact BitVec.extractLsb'_eq_self

/-- The table's reader answers the decoder's request of the 65-bit word. -/
theorem eq_decode_of_decodeTableWord {nbits w : Nat} {i : Instr} (h : decodeTableWord nbits w = some i) :
    i = decode (BitVec.ofNat 65 (w % 2 ^ nbits)) := by
  by_cases hw : fitsRequest (w % 2 ^ nbits) = true
  · simpa [decodeTableWord, decodeNat, hw] using h.symm
  · simp [decodeTableWord, decodeNat, hw] at h

/-- Defined signals carry the request of the word they lay out (R43). -/
theorem Pins.request_of_signals {p : Pins} {op : BitVec 1} {a b : Word} (hop : p.op = some op) (ha : p.a = some a)
    (hb : p.b = some b) : p.request = .ok (decode (requestWord op a b)) := by
  simp [Pins.request, hop, ha, hb]

/-! ### What an event is -/

theorem State.event_of_no_slots {s : State} (h : s.latency = 0) : s.event = s.pins.readEvent := by
  simp [State.event, Pins.event, h]

theorem State.event_of_slots {s : State} (h : 0 < s.latency) : s.event = s.pins.edgeEvent := by
  simp [State.event, Pins.event, h.ne']

/-- The read that each event of a combinational block comes from (R27, R101). -/
theorem Pins.read_of_readEvent {p : Pins} {e : Event} (h : p.readEvent = .ok e) :
    (e = .idle ∧ p.read = .noRead) ∨
    (∃ i, e = .request i ∧ p.read = .steady ∧ p.request = .ok i) ∨
    (∃ i, e = .unsteadyRead ∧ p.read = .changing ∧ p.request = .ok i) := by
  unfold Pins.readEvent at h
  cases hr : p.read with
  | noRead => exact .inl ⟨by simpa [hr] using h.symm, rfl⟩
  | steady =>
    cases hq : p.request with
    | error f => simp [hr, hq, Except.map] at h
    | ok i => exact .inr (.inl ⟨i, by simpa [hr, hq, Except.map] using h.symm, rfl, rfl⟩)
  | changing =>
    cases hq : p.request with
    | error f => simp [hr, hq, Except.map] at h
    | ok i => exact .inr (.inr ⟨i, by simpa [hr, hq, Except.map] using h.symm, rfl, rfl⟩)

/-- Only a block without slots is read while its inputs change (R101). -/
theorem Pins.edgeEvent_ne_unsteadyRead (p : Pins) : p.edgeEvent ≠ .ok .unsteadyRead := by
  unfold Pins.edgeEvent
  rcases p.rst with _ | rst
  · simp
  · rcases p.inValid with _ | _ | _
    · simp
    · cases rst <;> simp
    · cases p.request <;> cases rst <;> simp

/-- The step samples a request: a steady read of a combinational block, or an edge with `rst = 0` and `in_valid = 1`
(R27, R28). -/
def State.Samples (s : State) : Prop :=
  (s.latency = 0 ∧ s.pins.read = .steady) ∨
  (0 < s.latency ∧ s.pins.rst = some false ∧ s.pins.inValid = some true)

theorem State.event_of_samples {s : State} {i : Instr} (h : s.Samples) (hi : s.pins.request = .ok i) :
    s.event = .ok (.request i) := by
  obtain ⟨hl, hr⟩ | ⟨hl, hrst, hv⟩ := h
  · rw [State.event_of_no_slots hl]
    simp [Pins.readEvent, hr, hi, Except.map]
  · rw [State.event_of_slots hl]
    simp [Pins.edgeEvent, hrst, hv, hi]

/-! ### What a step does, by its event -/

/-- The reply that enters the slots at an event (R28, R101). -/
def State.entering (s : State) : Event → Option Reply
  | .reset => none
  | .idle => none
  | .unsteadyRead => some (.unsteady (Config.freeWord s.tick))
  | .request i => some (.answer i (respond s.divAbsMode i))

/-- A step with a request on the inputs answers it (R28). -/
theorem step_of_request {s : State} {i : Instr} (h : s.event = .ok (.request i)) :
    step s = .next (s.answer i (respond s.divAbsMode i)).nextCycle := by
  simp [step, h, exec_eq]

/-- Every step but a reset edge moves the slots on by one. -/
theorem step_eq_advance {s t : State} {e : Event} (h : step s = .next t) (he : s.event = .ok e) (hr : e ≠ .reset) :
    t = (s.advance (s.entering e)).nextCycle := by
  rcases step_cases h with ⟨h', -⟩ | ⟨h', ht⟩ | ⟨h', ht⟩ | ⟨i, h', ht⟩ <;>
    obtain rfl := Except.ok.inj (he.symm.trans h')
  · exact absurd rfl hr
  all_goals exact ht

theorem step_eq_resetEdge {s t : State} (h : step s = .next t) (he : s.event = .ok .reset) :
    t = s.resetEdge.nextCycle := by
  simpa [step, he] using h.symm

/-- A step that answers a next state had an event. -/
theorem event_of_step {s t : State} (h : step s = .next t) : ∃ e, s.event = .ok e := by
  cases he : s.event with
  | ok e => exact ⟨e, rfl⟩
  | error f => simp [(step_fault_iff s f).mpr he] at h

/-- At every step, a reset edge too, the last slot is delivered, or what enters if there is none (R27, R92, R97). -/
theorem received_of_step {s t : State} {e : Event} (h : step s = .next t) (he : s.event = .ok e) :
    t.received = s.received ++ (s.inflight.getLastD (s.entering e)).toList := by
  by_cases hr : e = .reset
  · subst hr
    rw [step_eq_resetEdge h he]
    rfl
  · rw [step_eq_advance h he hr]
    rfl

/-! ### The outputs -/

theorem State.inflight_of_no_slots {s : State} (h : s.latency = 0) : s.inflight = [] :=
  List.eq_nil_of_length_eq_zero h

theorem State.output_of_no_slots {s : State} (h : s.latency = 0) : s.output = some s.combinational := by
  simp [State.output, State.inflight_of_no_slots h]

/-- With slots, the last one is on the outputs (R97). -/
theorem State.getLastD_inflight {s : State} (h : 0 < s.latency) (x : Option Reply) :
    s.inflight.getLastD x = s.output := by
  have hne : s.inflight ≠ [] := List.length_pos_iff.mp h
  simp [State.output, List.getLastD_eq_getLast?, List.getLast?_eq_some_getLast hne]

/-- Nothing is outstanding exactly when every valid bit is clear (R30). -/
theorem State.outstanding_eq_nil_iff {s : State} :
    s.outstanding = [] ↔ s.inflight = List.replicate s.latency none := by
  simp [State.outstanding, List.eq_replicate_iff, State.latency]

/-- With every valid bit clear `out_valid` is 0 (R31). -/
theorem State.output_of_outstanding_nil {s : State} (h : 0 < s.latency) (ho : s.outstanding = []) :
    s.output = none := by
  rw [← s.getLastD_inflight h none, State.outstanding_eq_nil_iff.mp ho]
  simp [List.getLastD_eq_getLast?, List.getLast?_replicate, h.ne']

theorem State.responsePresent_of_outstanding_nil {s : State} (h : 0 < s.latency) (ho : s.outstanding = []) :
    s.responsePresent = false := by
  simp [State.responsePresent, State.output_of_outstanding_nil h ho]

end Sys2Proof.Machine
end

section
/-! SUPPORT. Proof that every step keeps each reply honest, and that it is so after reset and at power-up
(spec/10_state.md R28, R31). One lemma for each of the three shared operations a step is made of. -/

namespace Sys2Proof.Machine

/-- The slots of a cycle before the first reset hold no answer, so nothing in them can be dishonest. -/
theorem Reply.honest_of_mem_unspecifiedSlots {x : Reply} {tick latency : Nat} (mode : DivAbsMode)
    (h : some x ∈ unspecifiedSlots tick latency) : x.Honest mode := by
  obtain ⟨w, rfl⟩ := mem_unspecifiedSlots h
  trivial

/-- What enters at a step is the response to the request it samples. -/
theorem State.honest_of_entering {s : State} {e : Event} {x : Reply} (h : s.entering e = some x) :
    x.Honest s.divAbsMode := by
  cases e <;> cases h
  case request => rfl
  case unsteadyRead => trivial

theorem State.Honest.advance {s : State} {y : Option Reply} (hs : s.Honest)
    (hy : ∀ x, y = some x → x.Honest s.divAbsMode) : (s.advance y).Honest := by
  obtain ⟨hflight, hgiven⟩ := hs
  constructor
  · intro x hx
    rcases State.mem_inflight_advance hx with h | h
    · exact hy x h.symm
    · exact hflight x h
  · intro x hx
    rcases State.mem_received_advance hx with h | h | h
    · exact hgiven x h
    · exact hflight x h
    · exact hy x h

/-- A reset edge delivers what an idle edge delivers, and leaves no reply in flight. -/
theorem State.Honest.resetEdge {s : State} (hs : s.Honest) : s.resetEdge.Honest :=
  ⟨by simp, (hs.advance (y := none) (by simp)).2⟩

theorem State.Honest.nextCycle {s : State} (hs : s.Honest) : s.nextCycle.Honest := by
  obtain ⟨hflight, hgiven⟩ := hs
  refine ⟨fun x hx => ?_, hgiven⟩
  rw [State.nextCycle_inflight] at hx
  split at hx
  · exact Reply.honest_of_mem_unspecifiedSlots _ hx
  · exact hflight x hx

end Sys2Proof.Machine

namespace Sys2Proof

open Sys2Proof.Machine

/-- Settles O47: only what enters at a step is new, and it is the response to its own request. -/
theorem everyStepKeepsRepliesHonest : Obligations.EveryStepKeepsRepliesHonest := by
  intro s t hs hstep
  obtain ⟨e, he⟩ := event_of_step hstep
  by_cases hr : e = .reset
  · subst hr
    rw [step_eq_resetEdge hstep he]
    exact hs.resetEdge.nextCycle
  · rw [step_eq_advance hstep he hr]
    exact (hs.advance fun _ => State.honest_of_entering).nextCycle

/-- Settles O48: after reset every slot is empty; at power-up no slot holds an answer. -/
theorem resetRepliesAreHonest : Obligations.ResetRepliesAreHonest := by
  intro mode latency
  refine ⟨⟨by simp, by simp⟩, fun x hx => ?_, by simp⟩
  exact Reply.honest_of_mem_unspecifiedSlots _ hx

end Sys2Proof
end

section
/-! SUPPORT. Proofs of the statements on the output signals (spec/10_state.md R27, R29): the fields of a response word,
that its reader inverts it, and what is on the signals when the response to a request is. -/

namespace Sys2Proof.Machine

/-! ### The fields of a response word (R46) -/

theorem cause_responseWord (cause : BitVec 2) (fault : BitVec 1) (result : Word) :
    (responseWord cause fault result).extractLsb' 33 2 = cause := by
  unfold responseWord
  rw [BitVec.append_assoc]
  exact BitVec.extractLsb'_append_eq_left

theorem fault_responseWord (cause : BitVec 2) (fault : BitVec 1) (result : Word) :
    (responseWord cause fault result).extractLsb' 32 1 = fault :=
  (BitVec.extractLsb'_append_eq_of_le (by rfl)).trans BitVec.extractLsb'_append_eq_right

theorem result_responseWord (cause : BitVec 2) (fault : BitVec 1) (result : Word) :
    (responseWord cause fault result).extractLsb' 0 32 = result :=
  BitVec.extractLsb'_append_eq_right

theorem cause_encodeResponse (r : Response) (u : Word) : (encodeResponse r u).extractLsb' 33 2 = r.causeBits := by
  cases r <;> exact cause_responseWord _ _ _

theorem fault_encodeResponse (r : Response) (u : Word) : (encodeResponse r u).extractLsb' 32 1 = r.faultBit := by
  cases r <;> exact fault_responseWord _ _ _

theorem result_encodeResponse_value (v u : Word) : (encodeResponse (.value v) u).extractLsb' 0 32 = v :=
  result_responseWord _ _ _

/-- The reader gives a response back from its word, whatever the `result` bits of a fault (R29, R46). -/
theorem decodeResponse_encodeResponse (r : Response) (u : Word) : decodeResponse (encodeResponse r u) = .ok r := by
  unfold decodeResponse
  rw [cause_encodeResponse, fault_encodeResponse]
  rcases r with v | _ | _
  · rw [result_encodeResponse_value]
    rfl
  · rfl
  · rfl

/-! ### The signals while the response to a request is on the outputs -/

theorem State.outputWord_of_answer {s : State} {i : Instr} {r : Response} (h : s.output = some (.answer i r)) :
    s.outputWord = encodeResponse r ((Config.freeWord s.tick).extractLsb' 0 32) := by
  simp [State.outputWord, h]

theorem State.responsePresent_of_answer {s : State} {i : Instr} {r : Response} (h : s.output = some (.answer i r)) :
    s.responsePresent = true := by
  simp [State.responsePresent, h]

theorem State.faultPin_of_answer {s : State} {i : Instr} {r : Response} (h : s.output = some (.answer i r)) :
    s.faultPin = r.faultBit := by
  rw [State.faultPin, State.outputWord_of_answer h, fault_encodeResponse]

theorem State.causePin_of_answer {s : State} {i : Instr} {r : Response} (h : s.output = some (.answer i r)) :
    s.causePin = r.causeBits := by
  rw [State.causePin, State.outputWord_of_answer h, cause_encodeResponse]

theorem State.resultPin_of_value {s : State} {i : Instr} {v : Word} (h : s.output = some (.answer i (.value v))) :
    s.resultPin = v := by
  rw [State.resultPin, State.outputWord_of_answer h, result_encodeResponse_value]

/-! ### The outputs of a combinational block -/

/-- The response to the current inputs is on the outputs, unless they change under a read (R27, R101). -/
theorem State.combinational_of_request {s : State} {i : Instr} (hi : s.pins.request = .ok i)
    (hr : s.pins.read ≠ .changing) : s.combinational = .answer i (respond s.divAbsMode i) := by
  simp [State.combinational, hi, hr]

/-- A read of changing inputs shows a free word (R101). -/
theorem State.combinational_of_changing {s : State} {i : Instr} (hi : s.pins.request = .ok i)
    (hr : s.pins.read = .changing) : s.combinational = .unsteady (Config.freeWord s.tick) := by
  simp [State.combinational, hi, hr]

end Sys2Proof.Machine

namespace Sys2Proof

open Sys2Proof.Machine

/-- Settles O31: the signals are the fields of the word of the response on the outputs. -/
theorem outputSignalsReportResponse : Obligations.OutputSignalsReportResponse := by
  refine ⟨fun _ _ _ => rfl, fun s i => ⟨fun v h => ?_, fun c h => ?_⟩⟩
  · exact ⟨State.responsePresent_of_answer h, State.faultPin_of_answer h, State.causePin_of_answer h,
      State.resultPin_of_value h⟩
  · refine ⟨State.responsePresent_of_answer h, State.faultPin_of_answer h, ?_⟩
    rw [State.causePin_of_answer h]
    cases c <;> rfl

/-- Settles O40: with no slots the outputs show `State.combinational`, and the reader inverts its word. -/
theorem combinationalResponseIsAlwaysPresent : Obligations.CombinationalResponseIsAlwaysPresent := by
  intro s hl
  have hout := State.output_of_no_slots hl
  refine ⟨by simp [State.responsePresent, hout], fun op a b hop ha hb hr => ?_⟩
  rw [State.combinational_of_request (Pins.request_of_signals hop ha hb) hr] at hout
  rw [State.outputWord_of_answer hout, decodeResponse_encodeResponse]

end Sys2Proof
end

section
/-! SUPPORT. Proofs of the statements on one step (spec/10_state.md R27, R28, R43): the request it runs and the reply it
delivers. -/

namespace Sys2Proof.Machine

/-- What a combinational block delivers at an event is what is on its outputs, if the host reads, and else nothing
(R27; log 1). -/
theorem State.entering_of_no_slots {s : State} {e : Event} (hl : s.latency = 0) (he : s.event = .ok e) :
    s.entering e = if s.pins.read = .noRead then none else s.output := by
  rw [State.event_of_no_slots hl] at he
  rw [State.output_of_no_slots hl]
  rcases Pins.read_of_readEvent he with ⟨rfl, hr⟩ | ⟨i, rfl, hr, hi⟩ | ⟨i, rfl, hr, hi⟩
  · simp [State.entering, hr]
  · simp [State.entering, hr, State.combinational_of_request hi]
  · simp [State.entering, hr, State.combinational_of_changing hi hr]

/-- A host that presents a word's request has it sampled, whatever LATENCY is (R28, R43). -/
theorem State.event_withFetchWord (s : State) (nbits w : Nat) :
    (s.withFetchWord nbits w).event = .ok (.request (decode (BitVec.ofNat 65 (w % 2 ^ nbits)))) := by
  apply State.event_of_samples
  · rcases (s.withFetchWord nbits w).latency.eq_zero_or_pos with hl | hl
    · exact .inl ⟨hl, rfl⟩
    · exact .inr ⟨hl, rfl, rfl⟩
  · rw [Pins.request_of_signals rfl rfl rfl, requestWord_fields]

end Sys2Proof.Machine

namespace Sys2Proof

open Sys2Proof.Machine

/-- Settles O32: the event is the decoded request, and the step executes it. -/
theorem stepRunsDecodedRequest : Obligations.StepRunsDecodedRequest := by
  intro s op a b hop ha hb hsamples
  rw [step_of_request (State.event_of_samples hsamples (Pins.request_of_signals hop ha hb)), exec_eq]

/-- Settles O33: the placed word's three signals lay out the word again, and the step samples them. -/
theorem placedRequestRunsNext : Obligations.PlacedRequestRunsNext := by
  intro s nbits w i h
  rw [eq_decode_of_decodeTableWord h]
  exact ⟨_, exec_eq _ _, step_of_request (State.event_withFetchWord s nbits w)⟩

/-- Settles O37: the last slot is on the outputs, and without slots what enters is. -/
theorem stepDeliversTheOutput : Obligations.StepDeliversTheOutput := by
  intro s t hstep
  obtain ⟨e, he⟩ := event_of_step hstep
  rw [received_of_step hstep he]
  congr 1
  rcases s.latency.eq_zero_or_pos with hl | hl
  · rw [State.inflight_of_no_slots hl, List.getLastD_nil, State.entering_of_no_slots hl he]
    by_cases hr : s.pins.read = .noRead <;> simp [hl, hr]
  · rw [State.getLastD_inflight hl]
    simp [hl.ne']

end Sys2Proof
end

section
/-! SUPPORT. Proofs of the statements on a block with nothing in flight: after reset, and until a request is accepted
(spec/10_state.md R30, R31). -/

namespace Sys2Proof.Machine

/-- With slots and nothing outstanding, an edge that accepts no request changes neither the slots nor what was given. -/
theorem step_of_outstanding_nil {s t : State} (hl : 0 < s.latency) (hb : s.awaitsReset = false)
    (ho : s.outstanding = []) (hreq : ∀ i, s.event ≠ .ok (.request i)) (hstep : step s = .next t) :
    t.awaitsReset = false ∧ t.inflight = s.inflight ∧ t.received = s.received := by
  have hslots := State.outstanding_eq_nil_iff.mp ho
  obtain ⟨e, he⟩ := event_of_step hstep
  have hgiven : t.received = s.received := by
    rw [received_of_step hstep he, State.getLastD_inflight hl, State.output_of_outstanding_nil hl ho]
    simp
  cases e with
  | reset =>
    obtain rfl := step_eq_resetEdge hstep he
    exact ⟨rfl, hslots.symm, hgiven⟩
  | idle =>
    obtain rfl := step_eq_advance hstep he (by simp)
    refine ⟨hb, ?_, hgiven⟩
    have hshift : (none :: s.inflight).dropLast = s.inflight := by
      rw [hslots, ← List.replicate_succ, List.dropLast_replicate, Nat.add_sub_cancel]
    simpa [State.entering, hb] using hshift
  | request i => exact absurd he (hreq i)
  | unsteadyRead => exact absurd (State.event_of_slots hl ▸ he) s.pins.edgeEvent_ne_unsteadyRead

theorem State.after_succ_of_step {s t : State} (h : step s = .next t) (k : Nat) : s.after (k + 1) = t.after k := by
  simp [State.after, h]

theorem State.step_of_after_succ {s t : State} {k : Nat} (h : s.after (k + 1) = some t) : ∃ u, step s = .next u := by
  cases hs : step s with
  | next u => exact ⟨u, rfl⟩
  | fault f => simp [State.after, hs] at h
  | refused r => simp [State.after, hs] at h

/-- `step_of_outstanding_nil` along a run. -/
theorem State.after_of_outstanding_nil {k : Nat} {s t : State} (hl : 0 < s.latency) (hb : s.awaitsReset = false)
    (ho : s.outstanding = []) (hreq : ∀ j v i, j < k → s.after j = some v → v.event ≠ .ok (.request i))
    (h : s.after k = some t) : t.inflight = s.inflight ∧ t.received = s.received := by
  induction k generalizing s with
  | zero =>
    obtain rfl := Option.some.inj h
    exact ⟨rfl, rfl⟩
  | succ k ih =>
    obtain ⟨u, hu⟩ := State.step_of_after_succ h
    obtain ⟨hbu, hslots, hgiven⟩ :=
      step_of_outstanding_nil hl hb ho (fun i => hreq 0 s i k.succ_pos rfl) hu
    rw [State.after_succ_of_step hu] at h
    rw [← hslots, ← hgiven]
    refine ih ?_ hbu ?_ (fun j v i hj hv => ?_) h
    · rwa [State.latency, hslots]
    · rwa [State.outstanding, hslots]
    · exact hreq (j + 1) v i (by omega) ((State.after_succ_of_step hu j).trans hv)

theorem State.outstanding_resetWith (mode : DivAbsMode) (latency : Nat) :
    (State.resetWith mode latency).outstanding = [] := by
  simp [State.outstanding_eq_nil_iff]

end Sys2Proof.Machine

namespace Sys2Proof

open Sys2Proof.Machine

/-- Settles O43: each such step leaves the slots and the host's record as they are. -/
theorem noResponseUntilRequestAccepted : Obligations.NoResponseUntilRequestAccepted := by
  intro k s t hl hb ho hreq h
  obtain ⟨hslots, hgiven⟩ := State.after_of_outstanding_nil hl hb ho hreq h
  have hot : t.outstanding = [] := by rwa [State.outstanding, hslots]
  have hlt : 0 < t.latency := by rwa [State.latency, hslots]
  exact ⟨hot, State.responsePresent_of_outstanding_nil hlt hot, hgiven⟩

/-- Settles O44: every slot is empty after reset, and a request is executed as in any state. -/
theorem resetStateIsIdle : Obligations.ResetStateIsIdle := by
  intro mode latency i
  refine ⟨State.latency_resetWith mode latency, State.outstanding_resetWith mode latency, rfl, rfl, rfl, fun hl => ?_,
    exec_eq i _⟩
  rw [← State.latency_resetWith mode latency] at hl
  exact State.responsePresent_of_outstanding_nil hl (State.outstanding_resetWith mode latency)

end Sys2Proof
end

section
/-! SUPPORT. Proof of the statement on the time before the first reset edge (spec/10_state.md R31;
spec/70_reset_and_hazards.md R94). -/

namespace Sys2Proof.Machine

/-- The last of the unspecified slots is on the outputs: a free valid bit with a free word (R31). -/
theorem State.output_of_unspecifiedSlots {s : State} {tick latency : Nat} (hl : 0 < latency)
    (h : s.inflight = unspecifiedSlots tick latency) :
    s.output = if Config.powerUpValid tick (latency - 1)
      then some (.leftover (Config.powerUpWord tick (latency - 1))) else none := by
  simp [State.output, h, unspecifiedSlots, List.getLastD_eq_getLast?, List.getLast?_range, hl.ne']

theorem State.responsePresent_of_unspecifiedSlots {s : State} {tick latency : Nat} (hl : 0 < latency)
    (h : s.inflight = unspecifiedSlots tick latency) :
    s.responsePresent = Config.powerUpValid tick (latency - 1) := by
  rw [State.responsePresent, State.output_of_unspecifiedSlots hl h]
  cases Config.powerUpValid tick (latency - 1) <;> rfl

theorem State.outputWord_of_unspecifiedSlots {s : State} {tick latency : Nat} (hl : 0 < latency)
    (h : s.inflight = unspecifiedSlots tick latency) (hp : s.responsePresent = true) :
    s.outputWord = Config.powerUpWord tick (latency - 1) := by
  rw [State.responsePresent_of_unspecifiedSlots hl h] at hp
  rw [State.outputWord, State.output_of_unspecifiedSlots hl h, if_pos hp]

/-- The unspecified slots answer no request. -/
theorem State.pending_of_unspecifiedSlots {s : State} {tick latency : Nat}
    (h : s.inflight = unspecifiedSlots tick latency) : s.pending = [] := by
  rw [State.pending, h, List.filterMap_eq_nil_iff]
  intro x hx
  cases x with
  | none => rfl
  | some y =>
    obtain ⟨w, rfl⟩ := mem_unspecifiedSlots (List.mem_reverse.mp hx)
    rfl

/-- What enters a block with slots is in flight after the edge. -/
theorem State.mem_inflight_advance_self {s : State} (hl : 0 < s.latency) (x : Option Reply) :
    x ∈ (s.advance x).inflight := by
  rw [State.advance_inflight, List.dropLast_cons_of_ne_nil (List.length_pos_iff.mp hl)]
  exact List.mem_cons_self

/-- Before the first reset the request of any slot is recorded as left without a response (log 11). -/
theorem State.mem_discarded_nextCycle {s : State} {i : Instr} {r : Response} (hw : s.awaitsReset = true)
    (h : some (.answer i r) ∈ s.inflight) : i ∈ s.nextCycle.discarded := by
  rw [State.nextCycle_discarded, if_pos hw]
  exact List.mem_append_right _ (List.mem_filterMap.mpr ⟨_, List.mem_reverse.mpr h, rfl⟩)

end Sys2Proof.Machine

namespace Sys2Proof

open Sys2Proof.Machine

/-- Settles O55: such a step moves the slots on, and the passage to the next cycle makes each unspecified anew. -/
theorem slotsUnspecifiedUntilFirstReset : Obligations.SlotsUnspecifiedUntilFirstReset := by
  intro s t hl hw hstep hr
  obtain ⟨e, he⟩ := event_of_step hstep
  obtain rfl := step_eq_advance hstep he (fun h => hr (h ▸ he))
  have hslots : (s.advance (s.entering e)).nextCycle.inflight = unspecifiedSlots (s.tick + 1) s.latency := by
    simp [hw]
  refine ⟨hw, hslots, rfl, State.responsePresent_of_unspecifiedSlots hl hslots,
    State.outputWord_of_unspecifiedSlots hl hslots, State.pending_of_unspecifiedSlots hslots, fun i hi => ?_⟩
  obtain rfl := Except.ok.inj (he.symm.trans hi)
  exact State.mem_discarded_nextCycle hw (State.mem_inflight_advance_self hl _)

end Sys2Proof
end

section
/-! SUPPORT. Proofs of the statements on the request word (spec/30_encoding.md R43 to R45, R48, R49, R52). They rest on
one law each way between a request word and its fields: `requestWord_fields` and `decode_requestWord`. -/

namespace Sys2Proof

open Sys2Proof.Machine

/-! ### The decoder on a laid out word -/

theorem requestOp_requestWord (op : BitVec 1) (a b : Word) : requestOp (requestWord op a b) = op := by
  unfold requestOp requestWord
  rw [BitVec.append_assoc]
  exact BitVec.extractLsb'_append_eq_left

/-- The select bit picks the operation, and the operands are taken as they stand (R44, R45). -/
theorem decode_requestWord (op : BitVec 1) (a b : Word) :
    decode (requestWord op a b) = if op = 0#1 then .fxmul a b else .fxdiv a b := by
  rw [decode, requestOp_requestWord, Laws.Fields.requestA_requestWord, Laws.Fields.requestB_requestWord]

theorem decode_encode (i : Instr) : decode (encode i) = i := by
  cases i with
  | fxmul a b => exact decode_requestWord 0#1 a b
  | fxdiv a b => exact decode_requestWord 1#1 a b

theorem decode_of_encode_eq {i : Instr} {w : RequestWord} (h : encode i = w) : decode w = i := h ▸ decode_encode i

/-- The select bit takes two values, and each is the one its operation is encoded with (R44). -/
theorem encode_decode (w : RequestWord) : encode (decode w) = w := by
  rcases BitVec.eq_zero_or_eq_one (requestOp w) with hop | hop
  · rw [decode, if_pos hop, encode, ← hop]
    exact requestWord_fields w
  · rw [decode, if_neg (by simp [hop]), encode, ← hop]
    exact requestWord_fields w

theorem decodeNat_of_lt {n : Nat} (h : n < 2 ^ 65) : decodeNat n = .ok (decode (BitVec.ofNat 65 n)) :=
  if_pos ((Laws.WellFormed.fitsRequest_iff n).mpr h)

theorem decodeNat_of_le {n : Nat} (h : 2 ^ 65 ≤ n) : decodeNat n = .error .widerThanRequestWord :=
  if_neg fun hfits => h.not_gt ((Laws.WellFormed.fitsRequest_iff n).mp hfits)

/-! ### The word a request line sends -/

/-- A request line whose operands have values sends the word laid out from them (R43, R50). -/
theorem sends_send {env : HostValues} {op : BitVec 1} {a b : Operand} {x y : Word} (ha : a.resolve env = .ok x)
    (hb : b.resolve env = .ok y) : (HostLine.send op a b).sends env = .ok (some (requestWord op x y)) := by
  simp only [HostLine.sends, requestOf, ha, hb, Except.map, encode_decode]

/-- `sends_send` for the text of a line. -/
theorem sends_of_assembleLine {text : List Char} {op : BitVec 1} {a b : Operand} {x y : Word} {w : RequestWord}
    (htext : assembleLine text = some (.send op a b)) (ha : a.resolve [] = .ok x) (hb : b.resolve [] = .ok y)
    (hw : requestWord op x y = w) : (assembleLine text).map (HostLine.sends []) = some (.ok (some w)) := by
  rw [htext, Option.map_some, sends_send ha hb, hw]

/-- Settles O1: each direction is one law of the layout, `decode_encode` and `encode_decode`. -/
theorem requestWordRoundTrip : Obligations.RequestWordRoundTrip :=
  ⟨fun i _ => decode_encode i, encode_decode⟩

/-- Settles O2: the two cases of `decode_requestWord`. -/
theorem selectBitDecodesOperation : Obligations.SelectBitDecodesOperation :=
  fun a b => ⟨decode_requestWord 0#1 a b, decode_requestWord 1#1 a b⟩

/-- Settles O3: a number below 2^65 is the value of its word, which encodes its own decoding. -/
theorem exactlyTheSixtyFiveBitWordsDecode : Obligations.ExactlyTheSixtyFiveBitWordsDecode := by
  intro n
  refine ⟨fun hn => ⟨_, decodeNat_of_lt hn, Laws.WellFormed.instr_wellFormed _, ?_⟩, decodeNat_of_le⟩
  rw [encode_decode, BitVec.toNat_ofNat, Nat.mod_eq_of_lt hn]

/-- Settles O4: each line is read to its select bit and operands, whose layout is the word beside it; each word is the
encoding of its request. -/
theorem specExampleWordsDecode : Obligations.SpecExampleWordsDecode := by
  unfold Obligations.SpecExampleWordsDecode
  refine ⟨?_, ?_, ?_, ?_, ?_, ?_, ?_, ?_, by decide⟩
  · have htext : assembleLine "FXMUL 0x00010000, 0x00020000".toList =
        some (.send 0#1 (.pattern 0x00010000#32) (.pattern 0x00020000#32)) := by decide
    exact sends_of_assembleLine htext rfl rfl (by decide)
  · have htext : assembleLine "FXDIV 0x7FFFFFFF, 0x00000001".toList =
        some (.send 1#1 (.pattern 0x7FFFFFFF#32) (.pattern 0x00000001#32)) := by decide
    exact sends_of_assembleLine htext rfl rfl (by decide)
  · have htext : assembleLine "FXDIV -65536, 0".toList = some (.send 1#1 (.decimal (-65536)) (.decimal 0)) := by decide
    exact sends_of_assembleLine htext rfl rfl (by decide)
  · have htext : assembleLine "FXMUL 0x004BC000, 0x00641999".toList =
        some (.send 0#1 (.pattern 0x004BC000#32) (.pattern 0x00641999#32)) := by decide
    exact sends_of_assembleLine htext rfl rfl (by decide)
  · exact decode_of_encode_eq (by decide)
  · exact decode_of_encode_eq (by decide)
  · exact decode_of_encode_eq (by decide)
  · exact decode_of_encode_eq (by decide)

end Sys2Proof
end

section
/-! SUPPORT. Proof of the statement on the response word (spec/30_encoding.md R46, R47, R48). -/

namespace Sys2Proof.Machine

/-- The block's three cause codes leave out the reserved one (R47). -/
theorem Response.causeBits_ne_reserved (r : Response) : r.causeBits ≠ 0b11#2 := by
  rcases r with v | _ | _ <;> simp [Response.causeBits, causeCode]

/-- The reserved cause is refused before any other field is read (R48). -/
theorem decodeResponse_of_reserved {w : ResponseWord} (h : w.extractLsb' 33 2 = 0b11#2) :
    decodeResponse w = .error .reservedCause :=
  if_pos h

end Sys2Proof.Machine

namespace Sys2Proof

open Sys2Proof.Machine

/-- Settles O5: the fields of an encoded response are those of the response, and none has the reserved cause. -/
theorem responseWordRoundTrip : Obligations.ResponseWordRoundTrip := by
  refine ⟨decodeResponse_encodeResponse, fun r u => ?_, fun w => decodeResponse_of_reserved⟩
  rw [cause_encodeResponse]
  exact r.causeBits_ne_reserved

end Sys2Proof
end

section
/-! SUPPORT. Proof of the statement on the pseudo-instructions (spec/30_encoding.md R51): the outcome of FXRAW is that
of `rawOfInt`, and the outcome of FXCONST that of `fromFloat`. -/

namespace Sys2Proof.Machine

/-- The pattern of an integer in range stands for that integer (R4). -/
theorem toInt_ofInt_of_fitsRaw {n : Int} (h : fitsRaw n = true) : (BitVec.ofInt 32 n).toInt = n := by
  obtain ⟨hmin, hmax⟩ := (Laws.WellFormed.fitsRaw_iff n).mp h
  exact BitVec.toInt_ofInt_eq_self (by decide) hmin (Int.lt_add_one_of_le hmax)

theorem rawOfInt_of_fitsRaw {n : Int} (h : fitsRaw n = true) : rawOfInt n = .ok (BitVec.ofInt 32 n) := if_pos h

theorem rawOfInt_of_outside {n : Int} (h : n < int32Min ∨ int32Max < n) : rawOfInt n = .error (.outsideRawRange n) := by
  refine if_neg fun hfits => ?_
  obtain ⟨hmin, hmax⟩ := (Laws.WellFormed.fitsRaw_iff n).mp hfits
  omega

theorem run_fxraw (mode : DivAbsMode) (env : HostValues) (d : Nat) (n : Int) :
    (HostLine.fxraw d n).run mode env = (rawOfInt n).map fun r => (d, r) :: env := by
  simp only [HostLine.run]
  cases rawOfInt n <;> rfl

theorem run_fxconst (mode : DivAbsMode) (env : HostValues) (d : Nat) (x : Binary64) :
    (HostLine.fxconst d x).run mode env = ((fromFloat x).mapError .conversion).map fun r => (d, r) :: env := by
  simp only [HostLine.run]
  cases fromFloat x <;> rfl

end Sys2Proof.Machine

namespace Sys2Proof

open Sys2Proof.Machine

/-- Settles O52: neither line has a request to send, and each binds or stops as its conversion does. -/
theorem pseudoInstructionsBindHostValues : Obligations.PseudoInstructionsBindHostValues := by
  intro mode env d
  refine ⟨fun n x => ⟨rfl, rfl⟩, fun n hmin hmax => ?_, fun n hout => ?_, fun x r hr => ?_, fun x e he => ?_⟩
  · have hfits := (Laws.WellFormed.fitsRaw_iff n).mpr ⟨hmin, hmax⟩
    refine ⟨BitVec.ofInt 32 n, toInt_ofInt_of_fitsRaw hfits, ?_⟩
    rw [run_fxraw, rawOfInt_of_fitsRaw hfits, Except.map]
  · rw [run_fxraw, rawOfInt_of_outside hout, Except.map]
  · rw [run_fxconst, hr, Except.mapError, Except.map]
  · rw [run_fxconst, he, Except.mapError, Except.map]

end Sys2Proof
end

section
/-! SUPPORT. What each unit of the multiply datapath computes (spec/41_datapath_units.md R53 to R55): one equation on
signed values for each of `sext64`, `widenMul`, `asr16`, `narrowWrap`, and the proofs of the statements on them. -/

namespace Sys2Proof.Machine

/-- A raw value is in the 32-bit signed range (R4, R8), the bounds as numerals for `omega`. -/
theorem toInt_word_bounds (v : Word) : -2147483648 ≤ v.toInt ∧ v.toInt ≤ 2147483647 :=
  (Laws.WellFormed.fitsRaw_iff _).mp (Laws.WellFormed.fitsRaw_toInt v)

@[simp] theorem toInt_sext64 (v : Word) : (sext64 v).toInt = v.toInt :=
  BitVec.toInt_signExtend_of_le (by decide)

/-- The range of a product of two raw values (R53): the lower end is `INT32_MIN * INT32_MAX`, the upper end
`INT32_MIN * INT32_MIN`. -/
theorem toInt_mul_toInt_bounds (a b : Word) :
    -2 ^ 62 + 2 ^ 31 ≤ a.toInt * b.toInt ∧ a.toInt * b.toInt ≤ 2 ^ 62 := by
  obtain ⟨ha, ha'⟩ := toInt_word_bounds a
  obtain ⟨hb, hb'⟩ := toInt_word_bounds b
  refine ⟨?_, BitVec.toInt_mul_toInt_le⟩
  rcases le_total 0 a.toInt with h | h
  · calc (-2 ^ 62 + 2 ^ 31 : Int) ≤ a.toInt * -2147483648 := by omega
      _ ≤ a.toInt * b.toInt := mul_le_mul_of_nonneg_left hb h
  · calc (-2 ^ 62 + 2 ^ 31 : Int) ≤ a.toInt * 2147483647 := by omega
      _ ≤ a.toInt * b.toInt := mul_le_mul_of_nonpos_left hb' h

@[simp] theorem toInt_widenMul (a b : Word) : (widenMul a b).toInt = a.toInt * b.toInt := by
  obtain ⟨hmin, hmax⟩ := toInt_mul_toInt_bounds a b
  rw [widenMul, BitVec.toInt_mul, toInt_sext64, toInt_sext64]
  exact Int.bmod_eq_of_le (by omega) (by omega)

@[simp] theorem toInt_asr16 (p : Wide) : (asr16 p).toInt = Int.fdiv p.toInt 65536 := by
  rw [asr16, BitVec.toInt_sshiftRight, Int.shiftRight_eq_div_pow, Int.fdiv_eq_ediv_of_nonneg _ (by decide)]
  rfl

/-- The sixteen bits that `asr16` fills in are copies of the sign bit (R54). -/
theorem asr16_high_bits (p : Wide) :
    (asr16 p).extractLsb' 48 16 = if p.msb then 0xFFFF#16 else 0x0000#16 := by
  have hbits : (asr16 p).extractLsb' 48 16 = BitVec.fill 16 p.msb := by
    ext i hi
    simp [asr16, BitVec.getElem_sshiftRight, show 48 + i < 64 by omega, show ¬16 + (48 + i) < 64 by omega]
  rw [hbits]
  cases p.msb <;> rfl

/-- The other bits of `asr16 p` are those of `p` from bit 16 on (R54). -/
theorem asr16_low_bits (p : Wide) : (asr16 p).extractLsb' 0 48 = p.extractLsb' 16 48 := by
  ext i hi
  simp [asr16, BitVec.getElem_sshiftRight, show i < 64 by omega, show 16 + i < 64 by omega]

/-- `narrow_wrap` is `s32` of the value it narrows (R9, R55). -/
theorem narrowWrap_eq_s32 (y : Wide) : narrowWrap y = s32 y.toInt := by
  apply BitVec.eq_of_toInt_eq
  rw [narrowWrap, s32, BitVec.toInt_extractLsb', BitVec.toInt_ofInt, BitVec.toInt_eq_toNat_bmod,
    Int.bmod_bmod_of_dvd (by decide)]
  rfl

/-- A value of the 32-bit range is kept (R55). -/
theorem toInt_narrowWrap_of_fits {y : Wide} (hmin : int32Min ≤ y.toInt) (hmax : y.toInt ≤ int32Max) :
    (narrowWrap y).toInt = y.toInt := by
  rw [narrowWrap_eq_s32]
  exact toInt_ofInt_of_fitsRaw ((Laws.WellFormed.fitsRaw_iff _).mpr ⟨hmin, hmax⟩)

/-- What `narrow_wrap` drops is a multiple of 2^32 (R55). -/
theorem dvd_sub_toInt_narrowWrap (y : Wide) : (2 ^ 32 : Int) ∣ y.toInt - (narrowWrap y).toInt := by
  rw [narrowWrap_eq_s32, s32, BitVec.toInt_ofInt]
  exact Int.dvd_self_sub_bmod

end Sys2Proof.Machine

namespace Sys2Proof

open Sys2Proof.Machine

/-- Settles O6: the 64-bit product cannot overflow, since the product of two raw values is in the stated range. -/
theorem wideningMultiplyIsExact : Obligations.WideningMultiplyIsExact := by
  intro a b
  rw [toInt_widenMul]
  exact ⟨rfl, toInt_mul_toInt_bounds a b⟩

/-- Settles O7: the value by the arithmetic shift, the bits by its two parts, the bound by the range of R53. -/
theorem shiftRightSixteenFloors : Obligations.ShiftRightSixteenFloors := by
  refine ⟨fun p => ⟨toInt_asr16 p, asr16_high_bits p, asr16_low_bits p⟩, fun a b => ?_⟩
  obtain ⟨hmin, hmax⟩ := toInt_mul_toInt_bounds a b
  rw [toInt_asr16, toInt_widenMul, Int.fdiv_eq_ediv_of_nonneg _ (by decide), abs_le]
  omega

/-- Settles O8: `narrow_wrap` is `s32`, whose value is the congruent one of the 32-bit range. -/
theorem wrappingNarrowKeepsLowBits : Obligations.WrappingNarrowKeepsLowBits := by
  intro y
  obtain ⟨hmin, hmax⟩ := toInt_word_bounds (narrowWrap y)
  exact ⟨rfl, dvd_sub_toInt_narrowWrap y, hmin, hmax, toInt_narrowWrap_of_fits⟩

end Sys2Proof
end

section
/-! SUPPORT. What each unit of the divide datapath computes (spec/41_datapath_units.md R56 to R61): the boundary value,
the range check, the guard, the scaled dividend and the divider, and the proofs of the statements on them. -/

namespace Sys2Proof.Machine

/-- The sign bit of the exclusive or tells whether the operands' sign bits differ (R10, R56). -/
theorem xor32_neg_iff (a b : Word) : xor32 a b < 0 ↔ a.msb ≠ b.msb := by
  have hsign : xor32 a b < 0 ↔ (a ^^^ b).msb = true := by rw [BitVec.msb_eq_toInt, decide_eq_true_iff, xor32]
  rw [hsign, BitVec.msb_xor, bne_iff_ne]

theorem satSelect_eq (a b : Word) : satSelect a b = if a.msb ≠ b.msb then minWord else maxWord := by
  simp only [satSelect, xor32_neg_iff]

/-- A value outside the 32-bit range faults (R57). -/
theorem narrowChecked_of_outside {c : Wide} (h : c.toInt < int32Min ∨ c.toInt > int32Max) :
    narrowChecked c = .error .rangeOverflow :=
  if_pos h

/-- Inside the 32-bit range the checked narrowing is the wrapping one (R55, R57). -/
theorem narrowChecked_of_fits {c : Wide} (hmin : int32Min ≤ c.toInt) (hmax : c.toInt ≤ int32Max) :
    narrowChecked c = .ok (narrowWrap c) :=
  if_neg (by omega)

theorem guardAbs_exact (v : Word) : guardAbs .exact v = |v.toInt| := (Int.abs_eq_natAbs _).symm

theorem guardAbs_wrap32_minWord : guardAbs .wrap32 minWord = int32Min := by decide

/-- The absolute value of any other raw value is a raw value, so taking it in 32 bits loses nothing (R58). -/
theorem guardAbs_wrap32_of_ne {v : Word} (h : v ≠ minWord) : guardAbs .wrap32 v = |v.toInt| := by
  obtain ⟨hmin, hmax⟩ := toInt_word_bounds v
  have hne : v.toInt ≠ -2147483648 := BitVec.toInt_ne.mpr h
  have hbounds : -2147483648 ≤ (v.toInt.natAbs : Int) ∧ (v.toInt.natAbs : Int) ≤ 2147483647 := by omega
  rw [Int.abs_eq_natAbs]
  exact toInt_ofInt_of_fitsRaw ((Laws.WellFormed.fitsRaw_iff _).mpr hbounds)

/-- The exact absolute value of a raw value is at most 2^31 (R58). -/
theorem abs_toInt_le (v : Word) : |v.toInt| ≤ 2 ^ 31 := by
  obtain ⟨hmin, hmax⟩ := toInt_word_bounds v
  exact abs_le.mpr (by omega)

@[simp] theorem toInt_scale16 (a : Word) : (scale16 a).toInt = a.toInt * 65536 := by
  obtain ⟨hmin, hmax⟩ := toInt_word_bounds a
  have hmul : scale16 a = sext64 a * 65536#64 := BitVec.shiftLeft_eq_mul_twoPow _ _
  rw [hmul, BitVec.toInt_mul, toInt_sext64, show (65536#64).toInt = 65536 from rfl]
  exact Int.bmod_eq_of_le (by omega) (by omega)

/-- The scaled dividend is far inside the 64-bit range (R60). -/
theorem abs_toInt_scale16_le (a : Word) : |(scale16 a).toInt| ≤ 2 ^ 47 := by
  obtain ⟨hmin, hmax⟩ := toInt_word_bounds a
  rw [toInt_scale16]
  exact abs_le.mpr (by omega)

theorem tdiv_zero_divisor (n : Wide) : tdiv n 0#64 = .error .zeroDivisor := if_pos rfl

theorem tdiv_of_ne_zero {n d : Wide} (h : d ≠ 0#64) : tdiv n d = .ok (n.sdiv d) := if_neg h

/-- But for `-2^63 / -1`, the only quotient that 64 bits do not hold, the divider's quotient is exact (R61). -/
theorem toInt_sdiv_of_not_overflow {n d : Wide} (h : ¬(n.toInt = -2 ^ 63 ∧ d.toInt = -1)) :
    (n.sdiv d).toInt = Int.tdiv n.toInt d.toInt := by
  refine BitVec.toInt_sdiv_of_ne_or_ne n d (not_and_or.mp fun hnd => h ?_)
  rw [hnd.1, hnd.2]
  decide

/-- A scaled dividend is never -2^63, so its quotient is always exact (R60, R61). -/
theorem toInt_scale16_sdiv (a b : Word) :
    ((scale16 a).sdiv (sext64 b)).toInt = Int.tdiv (a.toInt * 65536) b.toInt := by
  have hbound := abs_le.mp (abs_toInt_scale16_le a)
  rw [toInt_sdiv_of_not_overflow (by omega), toInt_scale16, toInt_sext64]

theorem sext64_ne_zero {b : Word} (h : b ≠ 0#32) : sext64 b ≠ 0#64 := by
  rw [← BitVec.toInt_ne] at h ⊢
  simpa using h

end Sys2Proof.Machine

namespace Sys2Proof

open Sys2Proof.Machine

/-- Settles O10: the range check decides, and a value that passes it is kept by the narrowing. -/
theorem checkedNarrowFaultsOutOfRange : Obligations.CheckedNarrowFaultsOutOfRange := fun c =>
  ⟨narrowChecked_of_outside, fun hmin hmax =>
    ⟨narrowWrap c, narrowChecked_of_fits hmin hmax, toInt_narrowWrap_of_fits hmin hmax⟩⟩

/-- Settles O11: by cases on `v = INT32_MIN`, the one raw value whose magnitude is no raw value. -/
theorem guardAbsoluteValueByMode : Obligations.GuardAbsoluteValueByMode := by
  intro v
  refine ⟨guardAbs_exact v, ?_, ?_, by decide⟩
  · split
    case isTrue h => rw [h, guardAbs_wrap32_minWord]
    case isFalse h => exact guardAbs_wrap32_of_ne h
  · constructor
    · intro hdiff
      by_contra h
      exact hdiff (by rw [guardAbs_exact, guardAbs_wrap32_of_ne h])
    · rintro rfl
      decide

/-- Settles O12: the guard decides this very comparison; the bounds are those of the magnitude, divided by 2^14. -/
theorem guardComparesShiftedMagnitude : Obligations.GuardComparesShiftedMagnitude := by
  refine ⟨fun mode a b => decide_eq_true_iff, fun v => ?_, by decide⟩
  have hnonneg := abs_nonneg v.toInt
  have hbound := abs_toInt_le v
  rw [guardAbs_exact, Int.fdiv_eq_ediv_of_nonneg _ (by decide)]
  omega

/-- Settles O13: 48 bits hold the scaled dividend, so the shift in 64 bits loses none. -/
theorem dividendScalingIsExact : Obligations.DividendScalingIsExact := fun a =>
  ⟨toInt_scale16 a, abs_toInt_scale16_le a⟩

/-- Settles O14: the quotient is exact where 64 bits hold it, and is never larger than its dividend. -/
theorem dividerTruncatesTowardZero : Obligations.DividerTruncatesTowardZero := by
  refine ⟨tdiv_zero_divisor, fun n d hd hov => ?_, fun a b hb => ?_⟩
  · exact ⟨n.sdiv d, tdiv_of_ne_zero hd, toInt_sdiv_of_not_overflow hov⟩
  · refine ⟨_, tdiv_of_ne_zero (sext64_ne_zero hb), toInt_scale16_sdiv a b, ?_⟩
    have hdividend := abs_toInt_scale16_le a
    have hquotient := Int.natAbs_tdiv_le_natAbs (a.toInt * 65536) b.toInt
    rw [toInt_scale16, Int.abs_eq_natAbs] at hdividend
    rw [toInt_scale16_sdiv, Int.abs_eq_natAbs]
    omega

/-- Settles O9: the sign of the exclusive or chooses the boundary value. -/
theorem saturationSelectReadsSignBits : Obligations.SaturationSelectReadsSignBits := by
  intro a b
  refine ⟨xor32_neg_iff a b, ?_⟩
  rw [satSelect_eq]
  split <;> rfl

end Sys2Proof
end

section
/-! SUPPORT. FXMUL (spec/42_multiply.md R63 to R67): its result as the floored product and as bits of the product, the
value of a result that does not overflow, and the proofs of the statements on it. -/

namespace Sys2Proof.Machine

theorem exec_fxmul (a b : Word) (s : State) :
    exec (.fxmul a b) s = .next (s.answer (.fxmul a b) (.value (mulResult a b))) :=
  exec_eq (.fxmul a b) s

/-! ### The result -/

/-- The three units of FXMUL, composed: the floored quotient of the exact product, in 32 bits (R63, R64). -/
theorem mulResult_eq_s32 (a b : Word) : mulResult a b = s32 (Int.fdiv (a.toInt * b.toInt) 65536) := by
  rw [mulResult, narrowWrap_eq_s32, toInt_asr16, toInt_widenMul]

theorem widenMul_eq_ofInt (a b : Word) : widenMul a b = BitVec.ofInt 64 (a.toInt * b.toInt) := by
  rw [← toInt_widenMul, BitVec.ofInt_toInt]

/-- Of the bits that `asr16` moves down, the narrowing keeps the low 32 (R54, R55). -/
theorem narrowWrap_asr16 (p : Wide) : narrowWrap (asr16 p) = p.extractLsb' 16 32 := by
  ext i hi
  have hbit := congrArg (·.getLsbD i) (asr16_low_bits p)
  simpa [narrowWrap, show i < 48 by omega, hi] using hbit

/-- FXMUL takes bits [47:16] of the product (R65). -/
theorem mulResult_eq_product_bits (a b : Word) :
    mulResult a b = (BitVec.ofInt 64 (a.toInt * b.toInt)).extractLsb' 16 32 := by
  rw [mulResult, narrowWrap_asr16, widenMul_eq_ofInt]

/-- Without overflow the result is the floored quotient itself (R64, R65). -/
theorem toInt_mulResult_of_fits {a b : Word} (hmin : int32Min ≤ Int.fdiv (a.toInt * b.toInt) 65536)
    (hmax : Int.fdiv (a.toInt * b.toInt) 65536 ≤ int32Max) :
    (mulResult a b).toInt = Int.fdiv (a.toInt * b.toInt) 65536 := by
  rw [← toInt_widenMul a b, ← toInt_asr16] at hmin hmax ⊢
  exact toInt_narrowWrap_of_fits hmin hmax

/-! ### Its laws (R66) -/

theorem mulResult_comm (a b : Word) : mulResult a b = mulResult b a := by
  rw [mulResult_eq_s32, mulResult_eq_s32, mul_comm]

/-- The raw value 65536, which stands for 1.0, is an identity. -/
theorem mulResult_one (a : Word) : mulResult a 0x00010000#32 = a := by
  have hone : (0x00010000#32).toInt = 65536 := rfl
  rw [mulResult_eq_s32, hone, Int.mul_fdiv_cancel _ (by decide), s32, BitVec.ofInt_toInt]

theorem mulResult_zero (a : Word) : mulResult a 0#32 = 0#32 := by
  have hzero : (0#32).toInt = 0 := rfl
  rw [mulResult_eq_s32, hzero, mul_zero]
  rfl

/-! ### The status bits of its response (R67) -/

theorem status_responseWord (cause : BitVec 2) (fault : BitVec 1) (result : Word) :
    (responseWord cause fault result).extractLsb' 32 3 = cause ++ fault :=
  BitVec.extractLsb'_append_eq_left

/-- `fault_cause` and `fault`, the top three bits of a response word, are clear in that of a value (R29, R46). -/
theorem status_encodeResponse_value (v u : Word) : (encodeResponse (.value v) u).extractLsb' 32 3 = 0b000#3 := by
  rw [encodeResponse, status_responseWord, Response.causeBits, Response.faultBit]
  decide

end Sys2Proof.Machine

namespace Sys2Proof

open Sys2Proof.Machine

/-- Settles O15: the decoder picks FXMUL by the select bit, and FXMUL answers the floored product. -/
theorem fxmulAnswersFlooredProduct : Obligations.FxmulAnswersFlooredProduct := by
  intro a b s
  refine ⟨decode_requestWord 0#1 a b, ?_⟩
  rw [exec_fxmul, mulResult_eq_s32]
  rfl

/-- Settles O16: the bounds of the product are those of the 32-bit range times 65536, and the answer is bits of it. -/
theorem fxmulOverflowWraps : Obligations.FxmulOverflowWraps := by
  intro a b s
  constructor
  · rw [Int.fdiv_eq_ediv_of_nonneg _ (by decide), int32Min, int32Max]
    omega
  · rw [exec_fxmul, mulResult_eq_product_bits]

/-- Settles O17: each law is one on the floored product; 1/65536, 0.5 and 2.0 do not associate, for the product of the
first two is floored to 0. -/
theorem fxmulAlgebraicLaws : Obligations.FxmulAlgebraicLaws := by
  refine ⟨exec_fxmul, mulResult_comm, fun a => ⟨mulResult_one a, mulResult_zero a⟩, fun a b hmin hmax => ?_,
    by decide, fun a => mulResult_eq_s32 a a, 1#32, 0x00008000#32, 0x00020000#32, by decide⟩
  have hvalue := toInt_mulResult_of_fits hmin hmax
  rw [Int.fdiv_eq_ediv_of_nonneg _ (by decide)] at hvalue
  refine ⟨fun hpos => ?_, fun hzero hone => ?_, fun hminusOne hneg => ?_, fun hneg => ?_⟩
  · omega
  · exact BitVec.eq_of_toInt_eq (hvalue.trans (Int.ediv_eq_zero_of_lt hzero hone))
  · omega
  · omega

/-- Settles O18: executing FXMUL only answers its own request, with a value. -/
theorem fxmulNeverFaults : Obligations.FxmulNeverFaults := by
  intro a b s
  exact ⟨_, _, exec_fxmul a b s, rfl, rfl, status_encodeResponse_value _, rfl, rfl, rfl, rfl, rfl,
    State.received_outstanding_advance _ s⟩

end Sys2Proof
end

section
/-! SUPPORT. FXDIV in either mode (spec/43_divide.md R68, R70; spec/60_exceptions.md R84): its response on each of the
four paths of the ordered checks, and the proofs of the statements that hold in both modes. -/

namespace Sys2Proof.Machine

theorem exec_fxdiv (a b : Word) (s : State) :
    exec (.fxdiv a b) s = .next (s.answer (.fxdiv a b) (respond s.divAbsMode (.fxdiv a b))) :=
  exec_eq (.fxdiv a b) s

/-! ### The four paths -/

theorem divOutcome_of_guard {mode : DivAbsMode} {a b : Word} (hg : guardTrips mode a b = true) :
    divOutcome mode a b = .ok (satSelect a b) :=
  if_pos hg

theorem divOutcome_zero_divisor {mode : DivAbsMode} {a : Word} (hg : guardTrips mode a 0#32 = false) :
    divOutcome mode a 0#32 = .error .zeroDivisor := by
  have hzero : sext64 0#32 = 0#64 := by decide
  simp [divOutcome, hg, hzero, tdiv_zero_divisor]

/-- Past the first two checks, the range check decides (R68). -/
theorem divOutcome_of_ne_zero {mode : DivAbsMode} {a b : Word} (hg : guardTrips mode a b = false) (hb : b ≠ 0#32) :
    divOutcome mode a b = narrowChecked ((scale16 a).sdiv (sext64 b)) := by
  simp [divOutcome, hg, tdiv_of_ne_zero (sext64_ne_zero hb)]

theorem divOutcome_of_outside {mode : DivAbsMode} {a b : Word} (hg : guardTrips mode a b = false) (hb : b ≠ 0#32)
    (hq : Int.tdiv (a.toInt * 65536) b.toInt < int32Min ∨ Int.tdiv (a.toInt * 65536) b.toInt > int32Max) :
    divOutcome mode a b = .error .rangeOverflow := by
  rw [← toInt_scale16_sdiv] at hq
  rw [divOutcome_of_ne_zero hg hb, narrowChecked_of_outside hq]

theorem divOutcome_of_fits {mode : DivAbsMode} {a b : Word} (hg : guardTrips mode a b = false) (hb : b ≠ 0#32)
    (hq : fitsRaw (Int.tdiv (a.toInt * 65536) b.toInt) = true) :
    divOutcome mode a b = .ok (s32 (Int.tdiv (a.toInt * 65536) b.toInt)) := by
  rw [← toInt_scale16_sdiv] at hq
  obtain ⟨hmin, hmax⟩ := (Laws.WellFormed.fitsRaw_iff _).mp hq
  rw [divOutcome_of_ne_zero hg hb, narrowChecked_of_fits hmin hmax, narrowWrap_eq_s32, toInt_scale16_sdiv]

/-- The mode is read by the guard alone (R7, R68). -/
theorem divOutcome_congr {mode mode' : DivAbsMode} {a b : Word} (hg : guardTrips mode a b = guardTrips mode' a b) :
    divOutcome mode a b = divOutcome mode' a b := by
  unfold divOutcome
  rw [hg]

/-! ### The response -/

theorem respond_of_ok {mode : DivAbsMode} {a b r : Word} (h : divOutcome mode a b = .ok r) :
    respond mode (.fxdiv a b) = .value r := by
  simp [respond, h]

theorem respond_of_error {mode : DivAbsMode} {a b : Word} {c : Cause} (h : divOutcome mode a b = .error c) :
    respond mode (.fxdiv a b) = .fault c := by
  simp [respond, h]

theorem respond_fxdiv_congr {mode mode' : DivAbsMode} {a b : Word} (hg : guardTrips mode a b = guardTrips mode' a b) :
    respond mode (.fxdiv a b) = respond mode' (.fxdiv a b) := by
  simp only [respond, divOutcome_congr hg]

theorem respond_of_guard {mode : DivAbsMode} {a b : Word} (hg : guardTrips mode a b = true) :
    respond mode (.fxdiv a b) = .value (satSelect a b) :=
  respond_of_ok (divOutcome_of_guard hg)

end Sys2Proof.Machine

namespace Sys2Proof

open Sys2Proof.Machine

/-- Settles O19: by cases on the checks in their order. -/
theorem fxdivAnswersByOrderedChecks : Obligations.FxdivAnswersByOrderedChecks := by
  intro a b s
  refine ⟨decode_requestWord 1#1 a b, ?_⟩
  rw [exec_fxdiv]
  congr 2
  split
  case isTrue hg => exact respond_of_guard hg
  case isFalse hg =>
    have hg := Bool.eq_false_of_not_eq_true hg
    split
    case isTrue hb =>
      subst hb
      exact respond_of_error (divOutcome_zero_divisor hg)
    case isFalse hb =>
      split
      case isTrue hq => exact respond_of_error (divOutcome_of_outside hg hb hq)
      case isFalse hq =>
        obtain ⟨hmin, hmax⟩ := not_or.mp hq
        have hfits := (Laws.WellFormed.fitsRaw_iff _).mpr ⟨not_lt.mp hmin, not_lt.mp hmax⟩
        exact respond_of_ok (divOutcome_of_fits hg hb hfits)

/-- Settles O21: the guard is the first check, and `sat_select` reads the sign bits. -/
theorem fxdivSaturatesWhenGuardTrips : Obligations.FxdivSaturatesWhenGuardTrips := by
  intro a b s hg
  rw [exec_fxdiv, respond_of_guard hg, satSelect_eq]

end Sys2Proof
end

section
/-! SUPPORT. FXDIV with EXACT (spec/43_divide.md R69, R71 to R73, R75): the guard as a comparison of magnitudes, the
bound it puts on the quotient, and the proofs of the statements on the two paths that are left. -/

namespace Sys2Proof.Machine

/-- `floor(x / 2^14) >= n` is `x >= 2^14 * n` for an integer `n` (R69). For `b = 0` it always holds. -/
theorem guardTrips_exact_iff (a b : Word) : guardTrips .exact a b = true ↔ |a.toInt| ≥ 16384 * |b.toInt| := by
  have hfloor : asr (guardAbs .exact a) 14 = |a.toInt| / 16384 := by
    rw [guardAbs_exact, asr, Int.fdiv_eq_ediv_of_nonneg _ (by decide)]
    rfl
  rw [guardTrips, decide_eq_true_iff, hfloor, guardAbs_exact]
  omega

theorem guardTrips_exact_eq_false_iff (a b : Word) :
    guardTrips .exact a b = false ↔ |a.toInt| < 16384 * |b.toInt| := by
  rw [← Bool.not_eq_true, guardTrips_exact_iff, not_le]

theorem guardTrips_exact_zero_divisor (a : Word) : guardTrips .exact a 0#32 = true :=
  (guardTrips_exact_iff a 0#32).mpr (by simp)

theorem ne_zero_of_guardTrips_exact {a b : Word} (hg : guardTrips .exact a b = false) : b ≠ 0#32 := by
  rintro rfl
  rw [guardTrips_exact_zero_divisor] at hg
  cases hg

/-- What the guard lets pass has a quotient below 2^30 (R73). -/
theorem abs_quotient_le_of_guardTrips_exact {a b : Word} (hg : guardTrips .exact a b = false) :
    |Int.tdiv (a.toInt * 65536) b.toInt| ≤ 2 ^ 30 - 1 := by
  rw [guardTrips_exact_eq_false_iff, Int.abs_eq_natAbs, Int.abs_eq_natAbs] at hg
  have hdividend : (a.toInt * 65536).natAbs < b.toInt.natAbs * 2 ^ 30 := by omega
  have hquotient : (Int.tdiv (a.toInt * 65536) b.toInt).natAbs < 2 ^ 30 := by
    rw [Int.natAbs_tdiv]
    exact Nat.div_lt_of_lt_mul hdividend
  rw [Int.abs_eq_natAbs]
  omega

theorem fitsRaw_quotient_of_guardTrips_exact {a b : Word} (hg : guardTrips .exact a b = false) :
    fitsRaw (Int.tdiv (a.toInt * 65536) b.toInt) = true := by
  have hbound := abs_le.mp (abs_quotient_le_of_guardTrips_exact hg)
  rw [Laws.WellFormed.fitsRaw_iff, int32Min, int32Max]
  omega

/-- The computed path of EXACT: the range check always passes (R72, R73). -/
theorem respond_exact_of_guard_false {a b : Word} (hg : guardTrips .exact a b = false) :
    respond .exact (.fxdiv a b) = .value (s32 (Int.tdiv (a.toInt * 65536) b.toInt)) :=
  respond_of_ok
    (divOutcome_of_fits hg (ne_zero_of_guardTrips_exact hg) (fitsRaw_quotient_of_guardTrips_exact hg))

/-- A computed quotient is a raw value, so no bit of it is lost (R72). -/
theorem toInt_s32_quotient {a b : Word} (hg : guardTrips .exact a b = false) :
    (s32 (Int.tdiv (a.toInt * 65536) b.toInt)).toInt = Int.tdiv (a.toInt * 65536) b.toInt :=
  toInt_ofInt_of_fitsRaw (fitsRaw_quotient_of_guardTrips_exact hg)

/-- For the divisor `INT32_MIN` the factor 2^16 cancels (R72). -/
theorem quotient_min_divisor (a : Word) :
    Int.tdiv (a.toInt * 65536) minWord.toInt = Int.tdiv (-a.toInt) 32768 := by
  have hmin : minWord.toInt = -32768 * 65536 := by decide
  rw [hmin, Int.mul_tdiv_mul_of_pos_left _ _ (by decide), Int.tdiv_neg, Int.neg_tdiv]

theorem satSelect_eq_minWord_or_maxWord (a b : Word) : satSelect a b = minWord ∨ satSelect a b = maxWord := by
  rw [satSelect_eq]
  exact ite_eq_or_eq _ _ _

/-- Over a divisor whose sign bit is clear the sign of the dividend decides (R70, R71). -/
theorem satSelect_of_msb_false (a : Word) {b : Word} (hb : b.msb = false) :
    satSelect a b = if a.toInt < 0 then minWord else maxWord := by
  rw [satSelect_eq, hb, BitVec.msb_eq_toInt]
  simp only [ne_eq, decide_eq_false_iff_not, not_not]

/-- No value of magnitude below 2^30 is a boundary value (R75). -/
theorem ne_boundary_of_abs_le {r : Word} (h : |r.toInt| ≤ 2 ^ 30 - 1) : ¬(r = minWord ∨ r = maxWord) := by
  rintro (rfl | rfl) <;> exact absurd h (by decide)

end Sys2Proof.Machine

namespace Sys2Proof

open Sys2Proof.Machine

/-- Settles O20: the guard compares magnitudes; 16384.0 itself fits 32 bits and is saturated. -/
theorem exactGuardComparesMagnitudes : Obligations.ExactGuardComparesMagnitudes :=
  ⟨fun a b _ => guardTrips_exact_iff a b, guardTrips_exact_zero_divisor, by decide, by decide, by decide⟩

/-- Settles O22: a zero divisor trips the guard, and the sign bit of zero is clear. -/
theorem fxdivByZeroSaturates : Obligations.FxdivByZeroSaturates := by
  intro a s hmode
  rw [exec_fxdiv, hmode, respond_of_guard (guardTrips_exact_zero_divisor a), satSelect_of_msb_false a BitVec.msb_zero]

/-- Settles O23: the quotient fits, and the answer is its pattern. -/
theorem fxdivComputesTruncatedQuotient : Obligations.FxdivComputesTruncatedQuotient := by
  intro a b s hmode hg
  refine ⟨s32 (Int.tdiv (a.toInt * 65536) b.toInt), ?_, toInt_s32_quotient hg, ?_⟩
  · rw [exec_fxdiv, hmode, respond_exact_of_guard_false hg]
  · rintro rfl
    rw [toInt_s32_quotient hg, quotient_min_divisor]

/-- Settles O24: by cases on the guard; a quotient it lets pass is too small to be a boundary value. -/
theorem exactFxdivNeverFaults : Obligations.ExactFxdivNeverFaults := by
  refine ⟨fun a b s hmode => ?_, by decide, by decide⟩
  rw [exec_fxdiv, hmode]
  cases hg : guardTrips .exact a b with
  | true =>
    exact ⟨satSelect a b, by rw [respond_of_guard hg], by simp, by simp [satSelect_eq_minWord_or_maxWord]⟩
  | false =>
    have hbound : |(s32 (Int.tdiv (a.toInt * 65536) b.toInt)).toInt| ≤ 2 ^ 30 - 1 := by
      rw [toInt_s32_quotient hg]
      exact abs_quotient_le_of_guardTrips_exact hg
    exact ⟨_, by rw [respond_exact_of_guard_false hg], fun _ => hbound, by simp [ne_boundary_of_abs_le hbound]⟩

end Sys2Proof
end

section
/-! SUPPORT. The laws of FXDIV with EXACT (spec/43_divide.md R77): what a negated operand does to the guard, the
quotient and the boundary value, and the proofs of the statements on the laws. -/

namespace Sys2Proof.Machine

/-! ### The guard on particular operands -/

/-- 1.0 as divisor lets pass what is below 16384.0 in magnitude (R77). -/
theorem guardTrips_exact_one (a : Word) : guardTrips .exact a 0x00010000#32 = true ↔ |a.toInt| ≥ 2 ^ 30 :=
  guardTrips_exact_iff a 0x00010000#32

theorem toInt_ne_zero {v : Word} (h : v ≠ 0#32) : v.toInt ≠ 0 := BitVec.toInt_ne.mpr h

theorem guardTrips_exact_self {a : Word} (h : a ≠ 0#32) : guardTrips .exact a a = false := by
  rw [guardTrips_exact_eq_false_iff]
  have hpos := abs_pos.mpr (toInt_ne_zero h)
  omega

theorem guardTrips_exact_zero_dividend {b : Word} (h : b ≠ 0#32) : guardTrips .exact 0#32 b = false := by
  rw [guardTrips_exact_eq_false_iff]
  simpa using toInt_ne_zero h

/-! ### Negating an operand -/

/-- `INT32_MIN` is the one raw value whose negation is not representable (R77). -/
theorem toInt_neg_word {v : Word} (h : v ≠ minWord) : (-v).toInt = -v.toInt :=
  BitVec.toInt_neg_of_ne_intMin h

theorem guardTrips_exact_neg_dividend {a : Word} (b : Word) (h : a ≠ minWord) :
    guardTrips .exact (-a) b = guardTrips .exact a b := by
  rw [Bool.eq_iff_iff, guardTrips_exact_iff, guardTrips_exact_iff, toInt_neg_word h, abs_neg]

theorem guardTrips_exact_neg_divisor (a : Word) {b : Word} (h : b ≠ minWord) :
    guardTrips .exact a (-b) = guardTrips .exact a b := by
  rw [Bool.eq_iff_iff, guardTrips_exact_iff, guardTrips_exact_iff, toInt_neg_word h, abs_neg]

/-- Rounding toward zero is symmetric (R77). -/
theorem quotient_neg_dividend {a : Word} (b : Word) (h : a ≠ minWord) :
    Int.tdiv ((-a).toInt * 65536) b.toInt = -Int.tdiv (a.toInt * 65536) b.toInt := by
  rw [toInt_neg_word h, Int.neg_mul, Int.neg_tdiv]

theorem quotient_neg_divisor (a : Word) {b : Word} (h : b ≠ minWord) :
    Int.tdiv (a.toInt * 65536) (-b).toInt = -Int.tdiv (a.toInt * 65536) b.toInt := by
  rw [toInt_neg_word h, Int.tdiv_neg]

theorem s32_neg (n : Int) : s32 (-n) = -s32 n := BitVec.ofInt_neg

/-- The two boundary values, swapped (R77); they are not negations of each other. -/
def swapBoundary (r : Word) : Word := if r = minWord then maxWord else minWord

theorem satSelect_mem_boundary_pairs (a b : Word) :
    (satSelect a b, swapBoundary (satSelect a b)) ∈ [(minWord, maxWord), (maxWord, minWord)] := by
  rcases satSelect_eq_minWord_or_maxWord a b with h | h <;> rw [h] <;> decide

theorem satSelect_neg_dividend {a : Word} (b : Word) (h : a ≠ minWord) (h0 : a ≠ 0#32) :
    satSelect (-a) b = swapBoundary (satSelect a b) := by
  rw [satSelect_eq, satSelect_eq, BitVec.msb_neg_of_ne_intMin_of_ne_zero h h0]
  cases a.msb <;> cases b.msb <;> decide

theorem satSelect_comm (a b : Word) : satSelect a b = satSelect b a := by
  simp only [satSelect_eq, ne_comm]

theorem satSelect_neg_divisor (a : Word) {b : Word} (h : b ≠ minWord) (h0 : b ≠ 0#32) :
    satSelect a (-b) = swapBoundary (satSelect a b) := by
  rw [satSelect_comm a, satSelect_comm a, satSelect_neg_dividend a h h0]

end Sys2Proof.Machine

namespace Sys2Proof

open Sys2Proof.Machine

/-- Settles O27: each law by the path that its operands take; 0 over 1.0 and 1.0 over 0 differ. -/
theorem fxdivQuotientLaws : Obligations.FxdivQuotientLaws := by
  have hone : (0x00010000#32).toInt = 65536 := rfl
  refine ⟨fun a ha => ?_, by decide, fun a ha => ?_, fun a ha => ?_, fun b hb => ?_,
    0#32, 0x00010000#32, by decide⟩
  · rw [respond_exact_of_guard_false (guardTrips_exact_self ha), Int.mul_tdiv_cancel_left _ (toInt_ne_zero ha)]
    rfl
  · have hg := Bool.eq_false_of_not_eq_true (mt (guardTrips_exact_one a).mp (not_le.mpr ha))
    rw [respond_exact_of_guard_false hg, hone, Int.mul_tdiv_cancel _ (by decide), s32, BitVec.ofInt_toInt]
  · rw [respond_of_guard ((guardTrips_exact_one a).mpr ha), satSelect_of_msb_false a rfl]
  · rw [respond_exact_of_guard_false (guardTrips_exact_zero_dividend hb), BitVec.toInt_zero, zero_mul, Int.zero_tdiv]
    rfl

/-- Settles O28: the guard reads magnitudes, the quotient is odd in each operand, and `sat_select` reads the sign bits,
which a negation flips. -/
theorem fxdivNegationLaws : Obligations.FxdivNegationLaws := by
  intro a b
  refine ⟨guardTrips_exact_neg_dividend b, guardTrips_exact_neg_divisor a, fun hg => ?_, fun hg => ?_⟩
  · refine ⟨_, respond_exact_of_guard_false hg, fun ha => ?_, fun hb => ?_⟩
    · rw [respond_exact_of_guard_false ((guardTrips_exact_neg_dividend b ha).trans hg), quotient_neg_dividend b ha,
        s32_neg]
    · rw [respond_exact_of_guard_false ((guardTrips_exact_neg_divisor a hb).trans hg), quotient_neg_divisor a hb,
        s32_neg]
  · refine ⟨_, _, satSelect_mem_boundary_pairs a b, respond_of_guard hg, fun ha ha0 => ?_, fun hb hb0 => ?_⟩
    · rw [respond_of_guard ((guardTrips_exact_neg_dividend b ha).trans hg), satSelect_neg_dividend b ha ha0]
    · rw [respond_of_guard ((guardTrips_exact_neg_divisor a hb).trans hg), satSelect_neg_divisor a hb hb0]

end Sys2Proof
end

section
/-! SUPPORT. FXDIV with WRAP32 (spec/43_divide.md R74): where its guard differs from that of EXACT, the quotients of the
dividend `INT32_MIN`, and the proof of the statement on the table of R74. -/

namespace Sys2Proof.Machine

/-! ### The guards -/

/-- The two readings of the absolute value differ at `INT32_MIN` only (R58). -/
theorem guardTrips_wrap32_of_ne {a b : Word} (ha : a ≠ minWord) (hb : b ≠ minWord) :
    guardTrips .wrap32 a b = guardTrips .exact a b := by
  simp only [guardTrips, guardAbs_exact, guardAbs_wrap32_of_ne ha, guardAbs_wrap32_of_ne hb]

theorem toInt_minWord : minWord.toInt = -2147483648 := rfl

theorem abs_toInt_minWord : |minWord.toInt| = 2147483648 := rfl

/-- The left side for the dividend `INT32_MIN` is -131072, below the magnitude of every other divisor (R74). -/
theorem guardTrips_wrap32_min_dividend {b : Word} (hb : b ≠ minWord) : guardTrips .wrap32 minWord b = false := by
  have hleft : asr (guardAbs .wrap32 minWord) 14 = -131072 := by decide
  have hright := abs_nonneg b.toInt
  rw [guardTrips, hleft, guardAbs_wrap32_of_ne hb, decide_eq_false_iff_not]
  omega

/-- The right side for the divisor `INT32_MIN` is `INT32_MIN`, below every left side (R74). -/
theorem guardTrips_wrap32_min_divisor {a : Word} (ha : a ≠ minWord) : guardTrips .wrap32 a minWord = true := by
  have hleft : 0 ≤ asr |a.toInt| 14 := Int.fdiv_nonneg (abs_nonneg _) (by decide)
  rw [guardTrips, guardAbs_wrap32_minWord, guardAbs_wrap32_of_ne ha, decide_eq_true_iff]
  exact le_trans (by decide) hleft

/-- With EXACT no magnitude of a raw value reaches 2^14 times that of `INT32_MIN` (R72). -/
theorem guardTrips_exact_min_divisor (a : Word) : guardTrips .exact a minWord = false := by
  have hbound := abs_toInt_le a
  rw [guardTrips_exact_eq_false_iff, abs_toInt_minWord]
  omega

theorem guardTrips_exact_min_dividend (b : Word) : guardTrips .exact minWord b = true ↔ |b.toInt| ≤ 131072 := by
  rw [guardTrips_exact_iff, abs_toInt_minWord]
  omega

/-! ### The quotients of the dividend `INT32_MIN` -/

theorem scaled_min : minWord.toInt * 65536 = -2 ^ 47 := by decide

/-- The sign taken out, the dividend is nonnegative and rounding toward zero is the floor. -/
theorem tdiv_neg_two_pow (n : Int) : Int.tdiv (-2 ^ 47) n = -(2 ^ 47 / n) := by
  rw [Int.neg_tdiv, Int.tdiv_eq_ediv_of_nonneg (by decide)]

theorem quotient_min_dividend_outside {n : Int} (h : (1 ≤ n ∧ n ≤ 65535) ∨ (-65536 ≤ n ∧ n ≤ -1)) :
    Int.tdiv (-2 ^ 47) n < int32Min ∨ Int.tdiv (-2 ^ 47) n > int32Max := by
  rw [tdiv_neg_two_pow, int32Min, int32Max]
  rcases h with ⟨hlo, hhi⟩ | ⟨hlo, hhi⟩
  · left
    have hq : 2147483649 ≤ 2 ^ 47 / n := (Int.le_ediv_iff_mul_le (by omega)).mpr (by omega)
    omega
  · right
    have hq : 2147483648 ≤ 2 ^ 47 / -n := (Int.le_ediv_iff_mul_le (by omega)).mpr (by omega)
    rw [Int.ediv_neg] at hq
    omega

theorem fitsRaw_quotient_min_dividend {n : Int} (h : 65536 ≤ n ∨ n ≤ -65537) :
    fitsRaw (Int.tdiv (-2 ^ 47) n) = true := by
  rw [tdiv_neg_two_pow, Laws.WellFormed.fitsRaw_iff, int32Min, int32Max]
  rcases h with h | h
  · have hlo : 0 ≤ 2 ^ 47 / n := Int.ediv_nonneg (by decide) (by omega)
    have hhi : 2 ^ 47 / n < 2147483649 := (Int.ediv_lt_iff_lt_mul (by omega)).mpr (by omega)
    omega
  · have hlo : 0 ≤ 2 ^ 47 / -n := Int.ediv_nonneg (by decide) (by omega)
    have hhi : 2 ^ 47 / -n < 2147483648 := (Int.ediv_lt_iff_lt_mul (by omega)).mpr (by omega)
    rw [Int.ediv_neg] at hlo hhi
    omega

/-! ### The responses of the dividend `INT32_MIN` with WRAP32 -/

theorem respond_wrap32_min_dividend_outside {b : Word}
    (h : (1 ≤ b.toInt ∧ b.toInt ≤ 65535) ∨ (-65536 ≤ b.toInt ∧ b.toInt ≤ -1)) :
    respond .wrap32 (.fxdiv minWord b) = .fault .rangeOverflow := by
  have hb : b ≠ minWord := BitVec.toInt_ne.mp (by rw [toInt_minWord]; omega)
  have hb0 : b ≠ 0#32 := BitVec.toInt_ne.mp (by rw [BitVec.toInt_zero]; omega)
  refine respond_of_error (divOutcome_of_outside (guardTrips_wrap32_min_dividend hb) hb0 ?_)
  rw [scaled_min]
  exact quotient_min_dividend_outside h

theorem respond_wrap32_min_dividend_fits {b : Word} (hb : b ≠ minWord)
    (h : 65536 ≤ b.toInt ∨ b.toInt ≤ -65537) :
    respond .wrap32 (.fxdiv minWord b) = .value (s32 (Int.tdiv (-2 ^ 47) b.toInt)) := by
  have hb0 : b ≠ 0#32 := BitVec.toInt_ne.mp (by rw [BitVec.toInt_zero]; omega)
  have hfits := fitsRaw_quotient_min_dividend h
  rw [← scaled_min] at hfits ⊢
  exact respond_of_ok (divOutcome_of_fits (guardTrips_wrap32_min_dividend hb) hb0 hfits)

/-- With EXACT the dividend `INT32_MIN` saturates over a divisor of at most 2.0 in magnitude (R74). -/
theorem respond_exact_min_dividend {b : Word} (h : |b.toInt| ≤ 131072) :
    respond .exact (.fxdiv minWord b) = .value (satSelect minWord b) :=
  respond_of_guard ((guardTrips_exact_min_dividend b).mpr h)

end Sys2Proof.Machine

namespace Sys2Proof

open Sys2Proof.Machine

/-- Settles O25: row by row, by the guard of each mode and the size of the quotient. -/
theorem wrapModeDiffersOnlyAtMinimum : Obligations.WrapModeDiffersOnlyAtMinimum := by
  refine ⟨fun a b ha hb => ?_, fun a ha => ⟨?_, ?_⟩, by decide, by decide, fun b hb => ⟨?_, ?_⟩,
    fun b hb => ⟨?_, ?_⟩, fun b hb hmin => ?_⟩
  · exact respond_fxdiv_congr (guardTrips_wrap32_of_ne ha hb)
  · rw [respond_of_guard (guardTrips_wrap32_min_divisor ha), satSelect_eq, BitVec.msb_eq_toInt,
      show minWord.msb = true from rfl]
    simp only [ne_eq, decide_eq_true_iff, not_lt, ge_iff_le]
  · rw [respond_exact_of_guard_false (guardTrips_exact_min_divisor a), quotient_min_divisor]
    rfl
  · exact respond_wrap32_min_dividend_outside hb
  · exact respond_exact_min_dividend (abs_le.mpr (by omega))
  · have hmin : b ≠ minWord := BitVec.toInt_ne.mp (by rw [toInt_minWord]; omega)
    exact respond_wrap32_min_dividend_fits hmin (by omega)
  · exact respond_exact_min_dividend (abs_le.mpr (by omega))
  · have hguard : guardTrips .exact minWord b = guardTrips .wrap32 minWord b := by
      rw [guardTrips_wrap32_min_dividend hmin]
      exact Bool.eq_false_of_not_eq_true (mt (guardTrips_exact_min_dividend b).mp (not_le.mpr hb))
    refine ⟨respond_wrap32_min_dividend_fits hmin ?_, respond_fxdiv_congr hguard⟩
    rcases lt_abs.mp hb with h | h <;> omega

end Sys2Proof
end

section
/-! SUPPORT. The precision of FXDIV on the computed path, in either mode (spec/43_divide.md R76): rounding toward zero
loses less than one unit, and never leaves the side of zero the quotient is on. -/

namespace Sys2Proof.Machine

/-- On the computed path the result is the pattern of a quotient that fits, of a nonzero divisor (R68). -/
theorem toInt_of_divOutcome {mode : DivAbsMode} {a b r : Word} (hg : guardTrips mode a b = false)
    (h : divOutcome mode a b = .ok r) : b ≠ 0#32 ∧ r.toInt = Int.tdiv (a.toInt * 65536) b.toInt := by
  have hb : b ≠ 0#32 := by
    rintro rfl
    simp [divOutcome_zero_divisor hg] at h
  by_cases hq : fitsRaw (Int.tdiv (a.toInt * 65536) b.toInt) = true
  · obtain rfl := Except.ok.inj ((divOutcome_of_fits hg hb hq).symm.trans h)
    exact ⟨hb, toInt_ofInt_of_fitsRaw hq⟩
  · rw [Laws.WellFormed.fitsRaw_iff, not_and_or, not_le, not_le] at hq
    simp [divOutcome_of_outside hg hb hq] at h

/-- A nonnegative dividend: the quotient, and the remainder over the divisor, have the sign of the divisor. -/
theorem tdiv_tmod_same_sign_of_nonneg {n : Int} (d : Int) (hn : 0 ≤ n) :
    (0 ≤ Int.tdiv n d ∧ 0 ≤ Int.tmod n d * d) ∨ (Int.tdiv n d ≤ 0 ∧ Int.tmod n d * d ≤ 0) := by
  have hrem := Int.tmod_nonneg d hn
  rcases le_total 0 d with hd | hd
  · exact .inl ⟨Int.tdiv_nonneg hn hd, mul_nonneg hrem hd⟩
  · exact .inr ⟨Int.tdiv_nonpos_of_nonneg_of_nonpos hn hd, mul_nonpos_of_nonneg_of_nonpos hrem hd⟩

/-- What rounding toward zero drops has the sign of what it keeps. -/
theorem tdiv_tmod_same_sign (n d : Int) :
    (0 ≤ Int.tdiv n d ∧ 0 ≤ Int.tmod n d * d) ∨ (Int.tdiv n d ≤ 0 ∧ Int.tmod n d * d ≤ 0) := by
  rcases le_total 0 n with hn | hn
  · exact tdiv_tmod_same_sign_of_nonneg d hn
  · have hneg := tdiv_tmod_same_sign_of_nonneg d (neg_nonneg.mpr hn)
    rw [Int.neg_tdiv, Int.neg_tmod, neg_mul] at hneg
    omega

/-- Rounding toward zero: within one unit of the real quotient, and between it and 0. -/
theorem tdiv_precision (n : Int) {d : Int} (hd : d ≠ 0) :
    |(Int.tdiv n d : ℚ) - n / d| < 1 ∧
    ((0 ≤ (Int.tdiv n d : ℚ) ∧ (Int.tdiv n d : ℚ) ≤ n / d) ∨
     ((n : ℚ) / d ≤ Int.tdiv n d ∧ (Int.tdiv n d : ℚ) ≤ 0)) := by
  have hd' : (d : ℚ) ≠ 0 := Int.cast_ne_zero.mpr hd
  have hsplit : (n : ℚ) / d = Int.tdiv n d + Int.tmod n d / d := by
    have hint : (d * Int.tdiv n d + Int.tmod n d : ℚ) = n := mod_cast Int.mul_tdiv_add_tmod n d
    rw [← hint]
    field_simp
  rw [hsplit]
  constructor
  · have hrem : |Int.tmod n d| < |d| := by
      rw [Int.abs_eq_natAbs, Int.abs_eq_natAbs, Int.natAbs_tmod]
      exact_mod_cast Nat.mod_lt _ (Int.natAbs_pos.mpr hd)
    rw [sub_add_cancel_left, abs_neg, abs_div, div_lt_one (abs_pos.mpr hd')]
    exact_mod_cast hrem
  · have hsign : (Int.tmod n d / d : ℚ) = (Int.tmod n d * d : Int) / (d : ℚ) ^ 2 := by
      push_cast
      field_simp
    rcases tdiv_tmod_same_sign n d with ⟨hq, hr⟩ | ⟨hq, hr⟩
    · left
      have hr' : 0 ≤ (Int.tmod n d / d : ℚ) := hsign ▸ div_nonneg (Int.cast_nonneg hr) (sq_nonneg _)
      exact ⟨Int.cast_nonneg hq, by linarith⟩
    · right
      have hr' : (Int.tmod n d / d : ℚ) ≤ 0 :=
        hsign ▸ div_nonpos_of_nonpos_of_nonneg (Int.cast_nonpos.mpr hr) (sq_nonneg _)
      exact ⟨by linarith, Int.cast_nonpos.mpr hq⟩

end Sys2Proof.Machine

namespace Sys2Proof

open Sys2Proof.Machine

/-- Settles O26: the result is the quotient of `a * 65536` rounded toward zero, in units of 1/65536. -/
theorem fxdivPrecision : Obligations.FxdivPrecision := by
  intro mode a b r hg h
  obtain ⟨hb, hr⟩ := toInt_of_divOutcome hg h
  obtain ⟨herror, hside⟩ := tdiv_precision (a.toInt * 65536) (toInt_ne_zero hb)
  rw [← hr] at herror hside
  have hscale : ((a.toInt * 65536 : Int) : ℚ) / b.toInt = 65536 * (a.toInt / b.toInt) := by
    push_cast
    ring
  rw [hscale] at herror hside
  constructor
  · rw [abs_lt] at herror ⊢
    constructor <;> linarith
  · rcases hside with ⟨hlo, hhi⟩ | ⟨hlo, hhi⟩
    · exact .inl ⟨by linarith, by linarith⟩
    · exact .inr ⟨by linarith, by linarith⟩

end Sys2Proof
end

section
/-! SUPPORT. Proofs of the statements on executing any request (spec/43_divide.md R78) and on a run with EXACT, which
only the host can spoil (spec/43_divide.md R73; spec/70_reset_and_hazards.md R94, R100). -/

namespace Sys2Proof.Machine

/-! ### What enters the slots -/

/-- With EXACT every response is a value (R67, R73). -/
theorem respond_exact_eq_value (i : Instr) : ∃ r, respond .exact i = .value r := by
  cases i with
  | fxmul a b => exact ⟨_, rfl⟩
  | fxdiv a b =>
    cases hg : guardTrips .exact a b with
    | true => exact ⟨_, respond_of_guard hg⟩
    | false => exact ⟨_, respond_exact_of_guard_false hg⟩

/-- Of what enters at a step with EXACT, only an unsteady read spoils the run (R73, R101). -/
theorem State.spoils_of_entering {s : State} {e : Event} {x : Reply} (hmode : s.divAbsMode = .exact)
    (he : e ≠ .unsteadyRead) (h : s.entering e = some x) : x.spoils = false := by
  cases e <;> cases h
  case request i =>
    obtain ⟨r, hr⟩ := respond_exact_eq_value i
    rw [hmode, hr, Reply.spoils]
  case unsteadyRead => exact absurd rfl he

/-- Only a request enters the slots with a request (R28). -/
theorem State.slotRequest_entering (s : State) (e : Event) :
    slotRequest (s.entering e) = none ∨ ∃ i, e = .request i := by
  cases e with
  | request i => exact .inr ⟨i, rfl⟩
  | reset | idle | unsteadyRead => exact .inl rfl

/-! ### A clean run, through each shared operation -/

theorem State.pending_eq_nil_iff {s : State} : s.pending = [] ↔ ∀ x ∈ s.inflight, slotRequest x = none := by
  simp [State.pending]

/-- An edge before the first reset leaves nothing pending, unless a request enters a slot (R94). -/
theorem State.pending_advance_eq_nil {s : State} {y : Option Reply} (hw : s.awaitsReset = true)
    (hs : s.pending = []) (hy : slotRequest y = none ∨ s.Booted) : (s.advance y).pending = [] := by
  rw [State.pending_eq_nil_iff] at hs ⊢
  intro x hx
  rcases hy with hy | hl | hb
  · rcases State.mem_inflight_advance hx with rfl | h
    · exact hy
    · exact hs x h
  · simp [State.inflight_of_no_slots hl] at hx
  · simp [hw] at hb

theorem State.Clean.advance {s : State} {y : Option Reply} (hs : s.Clean) (hy : ∀ x, y = some x → x.spoils = false)
    (hb : slotRequest y = none ∨ s.Booted) : (s.advance y).Clean := by
  obtain ⟨hmode, hdiscarded, hpending, hflight, hgiven⟩ := hs
  refine ⟨hmode, hdiscarded, fun hw => State.pending_advance_eq_nil hw (hpending hw) hb, fun x hx => ?_,
    fun x hx => ?_⟩
  · rcases State.mem_inflight_advance hx with h | h
    · exact hy x h.symm
    · exact hflight x h
  · rcases State.mem_received_advance hx with h | h | h
    · exact hgiven x h
    · exact hflight x h
    · exact hy x h

/-- A reset edge delivers what an idle edge delivers; what else it could lose, it must not find (R92). -/
theorem State.Clean.resetEdge {s : State} (hs : s.Clean)
    (hlost : s.inflight.dropLast.filterMap slotRequest = []) : s.resetEdge.Clean := by
  obtain ⟨-, -, -, -, hgiven⟩ := hs.advance (y := none) (by simp) (.inl rfl)
  obtain ⟨hmode, hdiscarded, -⟩ := hs
  exact ⟨hmode, by simp [hdiscarded, List.filterMap_reverse, hlost], by simp, by simp, hgiven⟩

/-- The slots made unspecified anew before the first reset hold no request, and lose none (R31). -/
theorem State.Clean.nextCycle {s : State} (hs : s.Clean) : s.nextCycle.Clean := by
  obtain ⟨hmode, hdiscarded, hpending, hflight, hgiven⟩ := hs
  cases hw : s.awaitsReset with
  | true =>
    have hslots : s.nextCycle.inflight = unspecifiedSlots (s.tick + 1) s.latency := by simp [hw]
    refine ⟨hmode, ?_, fun _ => State.pending_of_unspecifiedSlots hslots, fun x hx => ?_, hgiven⟩
    · rw [State.nextCycle_discarded, if_pos hw, hdiscarded]
      exact hpending hw
    · rw [hslots] at hx
      obtain ⟨w, rfl⟩ := mem_unspecifiedSlots hx
      rfl
  | false =>
    obtain ⟨hslots, hlost⟩ := State.nextCycle_of_booted (.inr hw)
    exact ⟨hmode, hlost.trans hdiscarded, by simp [hw], hslots ▸ hflight, hgiven⟩

theorem State.Clean.endsWell {s : State} (hs : s.Clean) (hend : s.ended = true) : s.endsWell = true := by
  obtain ⟨-, hdiscarded, -, -, hgiven⟩ := hs
  simpa [State.endsWell, hend, hdiscarded] using hgiven

end Sys2Proof.Machine

namespace Sys2Proof

open Sys2Proof.Machine

/-- Settles O34: executing a request only answers it. -/
theorem executionFrame : Obligations.ExecutionFrame := by
  intro i s t h
  obtain rfl := eq_answer_of_exec_eq_next h
  exact ⟨rfl, State.latency_answer i _ s, rfl, rfl, rfl, rfl, rfl, ⟨_, rfl⟩, _,
    State.received_outstanding_advance _ s⟩

/-- Settles O49: a reset edge that loses nothing keeps a run clean, and so does every other edge at which a value enters
or nothing. -/
theorem exactRunStaysClean : Obligations.ExactRunStaysClean := by
  refine ⟨fun s t hs hstep hread hreset hrequest => ?_, fun s => State.Clean.endsWell⟩
  obtain ⟨e, he⟩ := event_of_step hstep
  by_cases hr : e = .reset
  · subst hr
    rw [step_eq_resetEdge hstep he]
    exact (hs.resetEdge (hreset he)).nextCycle
  · rw [step_eq_advance hstep he hr]
    have hsteady : e ≠ .unsteadyRead := fun h => hread (h ▸ he)
    have hbooted : slotRequest (s.entering e) = none ∨ s.Booted :=
      (s.slotRequest_entering e).imp_right fun ⟨i, hi⟩ => hrequest i (hi ▸ he)
    exact (hs.advance (fun _ => State.spoils_of_entering hs.1 hsteady) hbooted).nextCycle

end Sys2Proof
end

section
/-! SUPPORT. Proofs of the statements on ArithmeticFault in the block (spec/60_exceptions.md R79, R82, R83): the requests
that fault are the rows of R74 that do, and taking the fault is answering the request that caused it. -/

namespace Sys2Proof.Machine

/-! ### Which requests fault -/

/-- The zero divisor is reached, since the guard does not trip (R74, R82). -/
theorem respond_wrap32_min_dividend_zero_divisor : respond .wrap32 (.fxdiv minWord 0#32) = .fault .zeroDivisor :=
  respond_of_error (divOutcome_zero_divisor (guardTrips_wrap32_min_dividend (by decide)))

theorem respond_wrap32_min_dividend_small {b : Word} (hb : b ≠ 0#32) (hlo : -65536 ≤ b.toInt) (hhi : b.toInt ≤ 65535) :
    respond .wrap32 (.fxdiv minWord b) = .fault .rangeOverflow := by
  have hne := toInt_ne_zero hb
  exact respond_wrap32_min_dividend_outside (by omega)

/-- With WRAP32 too, only the dividend `INT32_MIN` can fault (R74, R82). -/
theorem respond_wrap32_eq_value_of_ne {a : Word} (b : Word) (ha : a ≠ minWord) :
    ∃ r, respond .wrap32 (.fxdiv a b) = .value r := by
  by_cases hb : b = minWord
  · subst hb
    exact ⟨_, respond_of_guard (guardTrips_wrap32_min_divisor ha)⟩
  · rw [respond_fxdiv_congr (guardTrips_wrap32_of_ne ha hb)]
    exact respond_exact_eq_value _

/-- Over the divisors outside `[-65536, 65535]` the quotient fits, or the divisor is `INT32_MIN`, which trips the guard
(R74). -/
theorem respond_wrap32_min_dividend_eq_value {b : Word} (h : 65536 ≤ b.toInt ∨ b.toInt ≤ -65537) :
    ∃ r, respond .wrap32 (.fxdiv minWord b) = .value r := by
  by_cases hb : b = minWord
  · subst hb
    exact ⟨_, respond_of_guard (by decide)⟩
  · exact ⟨_, respond_wrap32_min_dividend_fits hb h⟩

/-- The inversion of a fault: the mode, the dividend, and a divisor of the rows of R74 that fault (R79, R82). -/
theorem eq_min_dividend_of_respond_eq_fault {mode : DivAbsMode} {i : Instr} {c : Cause}
    (h : respond mode i = .fault c) :
    mode = .wrap32 ∧ ∃ b : Word, i = .fxdiv minWord b ∧ -65536 ≤ b.toInt ∧ b.toInt ≤ 65535 := by
  have hvalue : ¬∃ r, respond mode i = .value r := by simp [h]
  cases mode with
  | exact => exact absurd (respond_exact_eq_value i) hvalue
  | wrap32 =>
    cases i with
    | fxmul a b => cases h
    | fxdiv a b =>
      have ha : a = minWord := by_contra fun ha => hvalue (respond_wrap32_eq_value_of_ne b ha)
      subst ha
      have hb : ¬(65536 ≤ b.toInt ∨ b.toInt ≤ -65537) := mt respond_wrap32_min_dividend_eq_value hvalue
      exact ⟨rfl, b, rfl, by omega, by omega⟩

/-! ### Taking the fault -/

/-- A request that faults is answered by taking ArithmeticFault (R79, R80). -/
theorem exec_of_respond_fault {s : State} {i : Instr} {c : Cause} (h : respond s.divAbsMode i = .fault c) :
    exec i s = .next (s.raiseArithmeticFault i c) := by
  rw [exec_eq, h, State.raiseArithmeticFault]

end Sys2Proof.Machine

namespace Sys2Proof

open Sys2Proof.Machine

/-- Settles O29: a fault has one of the divisors of R74, and which it is decides the cause. -/
theorem arithmeticFaultExactlyWhen : Obligations.ArithmeticFaultExactlyWhen := by
  refine ⟨fun mode i c => ⟨fun h => ?_, ?_⟩, rfl, rfl⟩
  · obtain ⟨rfl, b, rfl, hlo, hhi⟩ := eq_min_dividend_of_respond_eq_fault h
    refine ⟨rfl, b, rfl, ?_⟩
    by_cases hb : b = 0#32
    · subst hb
      exact .inl ⟨Response.fault.inj (h.symm.trans respond_wrap32_min_dividend_zero_divisor), rfl⟩
    · exact .inr ⟨Response.fault.inj (h.symm.trans (respond_wrap32_min_dividend_small hb hlo hhi)), hb, hlo, hhi⟩
  · rintro ⟨rfl, b, rfl, ⟨rfl, rfl⟩ | ⟨rfl, hb, hlo, hhi⟩⟩
    · exact respond_wrap32_min_dividend_zero_divisor
    · exact respond_wrap32_min_dividend_small hb hlo hhi

/-- Settles O30: the fault enters the slots as every response does, and the mode, which the next response reads, is
kept. -/
theorem arithmeticFaultIsLocal : Obligations.ArithmeticFaultIsLocal := by
  intro a b c s j h
  exact ⟨s.raiseArithmeticFault (.fxdiv a b) c, exec_of_respond_fault (respond_of_error h), rfl, rfl, rfl, rfl, rfl, rfl,
    State.received_outstanding_advance _ s, exec_eq j _⟩

end Sys2Proof
end

section
/-! SUPPORT. Proof of the statement on host programs and fault responses (spec/60_exceptions.md R86;
spec/70_reset_and_hazards.md R100): a host's own stops are no faults of the block, and a program runs as its lines do,
one after the other. -/

namespace Sys2Proof.Machine

/-! ### The stops of the host's own -/

theorem rawOfInt_ne_arithmeticFault (n : Int) (c : Cause) : rawOfInt n ≠ .error (.arithmeticFault c) := by
  unfold rawOfInt
  split <;> simp

theorem Operand.resolve_ne_arithmeticFault (x : Operand) (env : HostValues) (c : Cause) :
    x.resolve env ≠ .error (.arithmeticFault c) := by
  cases x with
  | pattern w => simp [Operand.resolve]
  | decimal n => exact rawOfInt_ne_arithmeticFault n c
  | value v => cases hv : env.find v <;> simp [Operand.resolve, hv]

theorem requestOf_ne_arithmeticFault (env : HostValues) (op : BitVec 1) (x y : Operand) (c : Cause) :
    requestOf env op x y ≠ .error (.arithmeticFault c) := by
  unfold requestOf
  cases hx : x.resolve env with
  | error e => simpa [hx] using x.resolve_ne_arithmeticFault env c
  | ok v =>
    cases hy : y.resolve env with
    | error e => simpa [hy] using y.resolve_ne_arithmeticFault env c
    | ok w => simp

/-! ### One line -/

/-- With EXACT the response to a request that is sent is a value (R73). -/
theorem exchange_exact_ne_arithmeticFault (env : HostValues) (op : BitVec 1) (x y : Operand) (c : Cause) :
    exchange .exact env op x y ≠ .error (.arithmeticFault c) := by
  cases hi : requestOf env op x y with
  | error e => simpa [exchange, hi] using requestOf_ne_arithmeticFault env op x y c
  | ok i =>
    obtain ⟨r, hr⟩ := respond_exact_eq_value i
    simp [exchange, hi, hr]

theorem run_send (mode : DivAbsMode) (env : HostValues) (op : BitVec 1) (x y : Operand) :
    (HostLine.send op x y).run mode env = (exchange mode env op x y).map fun _ => env := by
  simp only [HostLine.run]
  cases exchange mode env op x y <;> rfl

theorem run_bind (mode : DivAbsMode) (env : HostValues) (d : Nat) (op : BitVec 1) (x y : Operand) :
    (HostLine.bind d op x y).run mode env = (exchange mode env op x y).map fun r => (d, r) :: env := by
  simp only [HostLine.run]
  cases exchange mode env op x y <;> rfl

/-- What a line binds, if anything, plays no part in why it stops. -/
theorem except_map_ne_error {α β ε : Type} {x : Except ε α} {e : ε} (f : α → β) (h : x ≠ .error e) :
    x.map f ≠ .error e := by
  cases x with
  | error e' => simpa [Except.map] using h
  | ok r => simp [Except.map]

theorem HostLine.run_exact_ne_arithmeticFault (line : HostLine) (env : HostValues) (c : Cause) :
    line.run .exact env ≠ .error (.arithmeticFault c) := by
  cases line with
  | send op x y =>
    rw [run_send]
    exact except_map_ne_error _ (exchange_exact_ne_arithmeticFault env op x y c)
  | bind d op x y =>
    rw [run_bind]
    exact except_map_ne_error _ (exchange_exact_ne_arithmeticFault env op x y c)
  | fxconst d x =>
    rw [run_fxconst]
    cases fromFloat x <;> simp [Except.mapError, Except.map]
  | fxraw d n =>
    rw [run_fxraw]
    exact except_map_ne_error _ (rawOfInt_ne_arithmeticFault n c)

/-- A request line stops on the fault it meets, bound or not (R50, R86). -/
theorem HostLine.run_of_fault {mode : DivAbsMode} {env : HostValues} {line : HostLine} {op : BitVec 1} {x y : Operand}
    {i : Instr} {c : Cause} (hline : line = .send op x y ∨ ∃ d, line = .bind d op x y)
    (hi : requestOf env op x y = .ok i) (hc : respond mode i = .fault c) :
    line.run mode env = .error (.arithmeticFault c) := by
  have hstop : exchange mode env op x y = .error (.arithmeticFault c) := by simp [exchange, hi, hc]
  obtain rfl | ⟨d, rfl⟩ := hline
  · rw [run_send, hstop, Except.map]
  · rw [run_bind, hstop, Except.map]

/-! ### The lines of a program -/

/-- A program stops where its first line does. -/
theorem runHostProgram_cons_of_error {mode : DivAbsMode} {env : HostValues} {line : HostLine} {e : HostStop}
    (h : line.run mode env = .error e) (rest : List HostLine) :
    runHostProgram mode env (line :: rest) = .error e := by
  simp [runHostProgram, h]

theorem runHostProgram_cons_of_ok {mode : DivAbsMode} {env env' : HostValues} {line : HostLine}
    (h : line.run mode env = .ok env') (rest : List HostLine) :
    runHostProgram mode env (line :: rest) = runHostProgram mode env' rest := by
  simp [runHostProgram, h]

/-- What follows a program that runs through starts from the values it left (R95). -/
theorem runHostProgram_append_of_ok {mode : DivAbsMode} {env env' : HostValues} {before : List HostLine}
    (h : runHostProgram mode env before = .ok env') (rest : List HostLine) :
    runHostProgram mode env (before ++ rest) = runHostProgram mode env' rest := by
  induction before generalizing env with
  | nil =>
    obtain rfl := Except.ok.inj h
    rfl
  | cons line lines ih =>
    cases hl : line.run mode env with
    | error e =>
      rw [runHostProgram_cons_of_error hl] at h
      cases h
    | ok values =>
      rw [runHostProgram_cons_of_ok hl] at h
      rw [List.cons_append, runHostProgram_cons_of_ok hl, ih h]

theorem runHostProgram_exact_ne_arithmeticFault (prog : List HostLine) (env : HostValues) (c : Cause) :
    runHostProgram .exact env prog ≠ .error (.arithmeticFault c) := by
  induction prog generalizing env with
  | nil => simp [runHostProgram]
  | cons line lines ih =>
    cases hl : line.run .exact env with
    | error e =>
      rw [runHostProgram_cons_of_error hl, ← hl]
      exact line.run_exact_ne_arithmeticFault env c
    | ok values =>
      rw [runHostProgram_cons_of_ok hl]
      exact ih values

end Sys2Proof.Machine

namespace Sys2Proof

open Sys2Proof.Machine

/-- Settles O53: with EXACT no line stops on a fault; in either mode the lines before run through, and the line that
meets the fault stops the program. -/
theorem faultsEndHostProgramsBadly : Obligations.FaultsEndHostProgramsBadly := by
  refine ⟨runHostProgram_exact_ne_arithmeticFault, ?_⟩
  intro mode before after env env' line op x y i c hline hbefore hi hc
  rw [runHostProgram_append_of_ok hbefore]
  exact runHostProgram_cons_of_error (HostLine.run_of_fault hline hi hc) after

end Sys2Proof
end

section
/-! SUPPORT. Proofs of the statements on what a step samples and what no step changes (R7, R98;
spec/70_reset_and_hazards.md R94). A step stops where its event is an error, so each is read off the signals. -/

namespace Sys2Proof.Machine

/-! ### Undefined signals -/

theorem Pins.request_error_iff (p : Pins) :
    (∃ f, p.request = .error f) ↔ p.op = none ∨ p.a = none ∨ p.b = none := by
  unfold Pins.request
  cases p.op <;> cases p.a <;> cases p.b <;> simp

/-- A combinational block samples its inputs exactly where the host reads (log 1). -/
theorem Pins.readEvent_error_iff (p : Pins) :
    (∃ f, p.readEvent = .error f) ↔ p.read ≠ .noRead ∧ ∃ f, p.request = .error f := by
  unfold Pins.readEvent
  cases p.read <;> cases p.request <;> simp [Except.map]

/-- An edge samples `rst` and `in_valid`, and the request where `in_valid = 1`, reset or not (log 8). -/
theorem Pins.edgeEvent_error_iff (p : Pins) :
    (∃ f, p.edgeEvent = .error f) ↔
      (p.inValid = some true ∧ ∃ f, p.request = .error f) ∨ p.rst = none ∨ p.inValid = none := by
  unfold Pins.edgeEvent
  rcases p.rst with _ | rst
  · simp
  · rcases p.inValid with _ | _ | _
    · simp
    · cases rst <;> simp
    · cases p.request <;> cases rst <;> simp

theorem step_ne_refused (s : State) (r : Refusal) : step s ≠ .refused r := by
  unfold step
  cases s.event with
  | error f => simp
  | ok e => cases e <;> simp [exec_eq]

/-- Where every sampled signal is defined, the step goes on. -/
theorem step_next_of_event {s : State} {e : Event} (h : s.event = .ok e) : ∃ t, step s = .next t := by
  cases hs : step s with
  | next t => exact ⟨t, rfl⟩
  | fault f => simp [(step_fault_iff s f).mp hs] at h
  | refused r => exact absurd hs (step_ne_refused s r)

/-! ### The build's parameters -/

theorem latency_of_step {s t : State} (h : step s = .next t) : t.latency = s.latency := by
  rcases step_cases h with ⟨-, rfl⟩ | ⟨-, rfl⟩ | ⟨-, rfl⟩ | ⟨i, -, rfl⟩ <;> simp

theorem divAbsMode_of_step {s t : State} (h : step s = .next t) : t.divAbsMode = s.divAbsMode := by
  rcases step_cases h with ⟨-, rfl⟩ | ⟨-, rfl⟩ | ⟨-, rfl⟩ | ⟨i, -, rfl⟩ <;> rfl

end Sys2Proof.Machine

namespace Sys2Proof

open Sys2Proof.Machine

/-- Settles O35: a step faults where its event is an error; with and without slots, the signals say where that is. -/
theorem stepStopsOnlyOnUndefinedInputs : Obligations.StepStopsOnlyOnUndefinedInputs := by
  intro s
  refine ⟨?_, step_ne_refused s⟩
  rw [exists_congr (step_fault_iff s)]
  rcases s.latency.eq_zero_or_pos with hl | hl
  · rw [State.event_of_no_slots hl, Pins.readEvent_error_iff, Pins.request_error_iff]
    simp [hl]
  · rw [State.event_of_slots hl, Pins.edgeEvent_error_iff, Pins.request_error_iff]
    simp [hl, hl.ne']

/-- Settles O36: each of the four things a step can do keeps both. -/
theorem buildParametersNeverChange : Obligations.BuildParametersNeverChange :=
  fun _ _ h => ⟨divAbsMode_of_step h, latency_of_step h⟩

end Sys2Proof
end

section
/-! SUPPORT. Proofs of the statements on the reset edge (spec/10_state.md R31; spec/70_reset_and_hazards.md R92 to R94). -/

namespace Sys2Proof.Machine

/-- With `rst = 1` and every sampled signal defined an edge is a reset, whatever `in_valid` is (R92). -/
theorem Pins.edgeEvent_of_rst {p : Pins} (hrst : p.rst = some true)
    (h : p.inValid = some false ∨ p.inValid = some true ∧ ∃ i, p.request = .ok i) : p.edgeEvent = .ok .reset := by
  obtain hv | ⟨hv, i, hi⟩ := h
  · simp [Pins.edgeEvent, hrst, hv]
  · simp [Pins.edgeEvent, hrst, hv, hi]

theorem Pins.readEvent_ne_reset (p : Pins) : p.readEvent ≠ .ok .reset := by
  intro h
  rcases Pins.read_of_readEvent h with ⟨h, -⟩ | ⟨i, h, -⟩ | ⟨i, h, -⟩ <;> cases h

theorem step_of_reset {s : State} (h : s.event = .ok .reset) : step s = .next s.resetEdge.nextCycle := by
  simp [step, h]

/-- After a reset edge the block has the slots of the reset state, and waits for no further reset. -/
theorem State.nextCycle_resetEdge_inflight (s : State) :
    s.resetEdge.nextCycle.inflight = List.replicate s.latency none :=
  (State.nextCycle_of_booted (.inr s.resetEdge_awaitsReset)).1

theorem State.outstanding_nextCycle_resetEdge (s : State) : s.resetEdge.nextCycle.outstanding = [] := by
  simp [State.outstanding_eq_nil_iff]

/-- In the cycle after a reset edge `out_valid` is 0 (R31, R92). -/
theorem State.responsePresent_nextCycle_resetEdge {s : State} (hl : 0 < s.latency) :
    s.resetEdge.nextCycle.responsePresent = false :=
  State.responsePresent_of_outstanding_nil (by simpa using hl) s.outstanding_nextCycle_resetEdge

/-- Where nothing is pending, a reset edge discards nothing (R92). -/
theorem State.resetEdge_discarded_of_pending_nil {s : State} (h : s.pending = []) :
    s.resetEdge.discarded = s.discarded := by
  have hslots := State.pending_eq_nil_iff.mp h
  have hlost : s.inflight.dropLast.reverse.filterMap slotRequest = [] :=
    List.filterMap_eq_nil_iff.mpr fun x hx => hslots x (List.dropLast_subset _ (List.mem_reverse.mp hx))
  rw [State.resetEdge_discarded, hlost, List.append_nil]

end Sys2Proof.Machine

namespace Sys2Proof

open Sys2Proof.Machine

/-- Settles O42: such an edge is a reset edge, and a combinational block has none. -/
theorem resetEdgeClearsRequestsInFlight : Obligations.ResetEdgeClearsRequestsInFlight := by
  refine fun s => ⟨fun hl hrst hv => ?_, fun hl => ?_⟩
  · have he : s.event = .ok .reset := (State.event_of_slots hl).trans (Pins.edgeEvent_of_rst hrst hv)
    refine ⟨_, step_of_reset he, s.nextCycle_resetEdge_inflight, s.outstanding_nextCycle_resetEdge,
      State.responsePresent_nextCycle_resetEdge hl, rfl, ?_, rfl⟩
    rw [← State.getLastD_inflight hl none]
    rfl
  · rw [State.event_of_no_slots hl]
    exact s.pins.readEvent_ne_reset

/-- Settles O45: the edge is a reset edge, and the unspecified slots it clears answer no request. -/
theorem oneResetEdgeEndsPowerUp : Obligations.OneResetEdgeEndsPowerUp := by
  intro mode latency p hl hrst hv
  have hlatency : { State.powerUp mode latency with pins := p }.latency = latency :=
    State.latency_powerUp mode latency
  obtain ⟨t, hstep, hslots, -, hpresent, hw, -, hlost⟩ :=
    (resetEdgeClearsRequestsInFlight { State.powerUp mode latency with pins := p }).1 (hlatency.symm ▸ hl) hrst hv
  rw [hlatency] at hslots
  exact ⟨t, hstep, hslots, hpresent, hw, divAbsMode_of_step hstep,
    hlost.trans (State.resetEdge_discarded_of_pending_nil (State.pending_of_unspecifiedSlots rfl))⟩

end Sys2Proof
end

section
/-! SUPPORT. Proofs of the statements on order and latency in a block that has had its reset edge
(spec/10_state.md R30; spec/70_reset_and_hazards.md R94, R96, R97): one edge, and a run of edges without reset. -/

namespace Sys2Proof.Machine

/-! ### One edge -/

theorem State.Booted.advance {s : State} (hb : s.Booted) (x : Option Reply) : (s.advance x).Booted := by
  simpa [State.Booted] using hb

/-- An edge without reset moves the slots on, and the replies given and outstanding grow by what enters (R96). -/
theorem step_of_booted {s t : State} {e : Event} (hb : s.Booted) (hstep : step s = .next t) (he : s.event = .ok e)
    (hr : e ≠ .reset) :
    t.inflight = (s.entering e :: s.inflight).dropLast ∧
      t.received ++ t.outstanding = s.received ++ s.outstanding ++ (s.entering e).toList := by
  obtain rfl := step_eq_advance hstep he hr
  have hslots := (State.nextCycle_of_booted (hb.advance (s.entering e))).1
  refine ⟨hslots, ?_⟩
  rw [← State.received_outstanding_advance, State.outstanding, hslots]
  rfl

/-- Only a reset edge ends the wait for one. -/
theorem awaitsReset_of_step {s t : State} (hstep : step s = .next t) (hr : s.event ≠ .ok .reset) :
    t.awaitsReset = s.awaitsReset := by
  obtain ⟨e, he⟩ := event_of_step hstep
  rw [step_eq_advance hstep he (fun h => hr (h ▸ he))]
  rfl

/-- At an edge without reset a slot hands its reply to the next one (R97). -/
theorem slot_succ_of_step {s t : State} {k : Nat} (hb : s.Booted) (hstep : step s = .next t)
    (hr : s.event ≠ .ok .reset) (hk : k + 1 < s.latency) : t.inflight[k + 1]? = s.inflight[k]? := by
  obtain ⟨e, he⟩ := event_of_step hstep
  rw [(step_of_booted hb hstep he (fun h => hr (h ▸ he))).1, List.getElem?_dropLast, List.getElem?_cons_succ]
  exact if_pos hk

/-- At an edge without reset what enters takes the first slot (R30). -/
theorem slot_zero_of_step {s t : State} {e : Event} (hl : 0 < s.latency) (hb : s.Booted)
    (hstep : step s = .next t) (he : s.event = .ok e) (hr : e ≠ .reset) :
    t.inflight[0]? = some (s.entering e) := by
  rw [(step_of_booted hb hstep he hr).1, List.getElem?_dropLast, List.getElem?_cons_zero]
  exact if_pos hl

/-- The last slot is on the outputs (R97). -/
theorem State.last_slot {s : State} (hl : 0 < s.latency) :
    s.inflight[s.latency - 1]? = some s.output := by
  have hne : s.inflight ≠ [] := List.length_pos_iff.mp hl
  rw [State.latency, ← List.getLast?_eq_getElem?, List.getLast?_eq_some_getLast hne, ← s.getLastD_inflight hl none,
    List.getLastD_eq_getLast?, List.getLast?_eq_some_getLast hne, Option.getD_some]

/-- At most as many replies are outstanding as there are slots (R30). -/
theorem State.length_outstanding_le (s : State) : s.outstanding.length ≤ s.latency :=
  (List.length_filterMap_le _ _).trans_eq List.length_reverse

/-! ### A run of edges without reset -/

/-- Over `k` edges without reset a reply moves on by `k` slots, as long as there are slots (R97). -/
theorem State.slot_of_after {j k : Nat} {s t : State} (hb : s.awaitsReset = false)
    (hr : ∀ m v, m < k → s.after m = some v → v.event ≠ .ok .reset) (h : s.after k = some t)
    (hj : j + k < s.latency) : t.latency = s.latency ∧ t.inflight[j + k]? = s.inflight[j]? := by
  induction k generalizing s j with
  | zero =>
    obtain rfl := Option.some.inj h
    exact ⟨rfl, rfl⟩
  | succ k ih =>
    obtain ⟨u, hu⟩ := State.step_of_after_succ h
    have hru : s.event ≠ .ok .reset := hr 0 s k.succ_pos rfl
    have hlatency := latency_of_step hu
    rw [State.after_succ_of_step hu] at h
    obtain ⟨hlt, hslot⟩ := ih (s := u) (j := j + 1) ((awaitsReset_of_step hu hru).trans hb)
      (fun m v hm hv => hr (m + 1) v (by omega) ((State.after_succ_of_step hu m).trans hv)) h (by omega)
    refine ⟨hlt.trans hlatency, ?_⟩
    rw [← slot_succ_of_step (.inr hb) hu hru (by omega), ← hslot]
    congr 1
    omega

end Sys2Proof.Machine

namespace Sys2Proof

open Sys2Proof.Machine

/-- Settles O54: the slots after the edge are those before it, after what enters. -/
theorem slotsMoveOnByOne : Obligations.SlotsMoveOnByOne := by
  intro s t hl hw hstep hr
  have hb : s.Booted := .inr hw
  exact ⟨latency_of_step hstep, fun k => slot_succ_of_step hb hstep hr,
    fun i hi => slot_zero_of_step hl hb hstep hi (by simp),
    fun hi => slot_zero_of_step hl hb hstep hi (by simp), State.last_slot hl⟩

/-- Settles O38: the replies given and outstanding grow by what enters, and each outstanding one has a slot. -/
theorem repliesInOrderExactlyOnce : Obligations.RepliesInOrderExactlyOnce := by
  refine fun s t hstep => ⟨fun hb he => ?_, fun i hb he => ?_, t.length_outstanding_le⟩
  · simpa [State.entering] using (step_of_booted hb hstep he (by simp)).2
  · exact (step_of_booted hb hstep he (by simp)).2

/-- Settles O39: the answer takes the first slot, and `LATENCY - 1` edges later it is in the last. -/
theorem responseComesLatencyEdgesLater : Obligations.ResponseComesLatencyEdgesLater := by
  intro s t u i hl hw he hstep hr hu
  have hlatency := latency_of_step hstep
  have hwt : t.awaitsReset = false := (awaitsReset_of_step hstep (by simp [he])).trans hw
  obtain ⟨hlu, hslot⟩ := State.slot_of_after (j := 0) hwt hr hu (by omega)
  have hpos : 0 < u.latency := by omega
  have hout : u.output = some (.answer i (respond s.divAbsMode i)) := by
    apply Option.some.inj
    rw [← State.last_slot hpos, hlu, hlatency, ← Nat.zero_add (s.latency - 1), hslot]
    exact slot_zero_of_step hl (.inr hw) hstep he (by simp)
  refine ⟨hout, State.responsePresent_of_answer hout, fun w hw => ?_⟩
  obtain ⟨e, he'⟩ := event_of_step hw
  rw [received_of_step hw he', State.getLastD_inflight hpos, hout, Option.toList_some]

end Sys2Proof
end

section
/-! SUPPORT. Proofs of the statements on reads of changing inputs (spec/70_reset_and_hazards.md R101): such a read is of
a block without slots, so it never enters a slot. -/

namespace Sys2Proof.Machine

/-- With `LATENCY = 0` a read of changing but defined inputs is an unsteady read (R101). -/
theorem State.event_of_changing {s : State} {i : Instr} (hl : s.latency = 0) (hi : s.pins.request = .ok i)
    (hr : s.pins.read = .changing) : s.event = .ok .unsteadyRead := by
  rw [State.event_of_no_slots hl]
  simp [Pins.readEvent, hr, hi, Except.map]

/-- A block with slots is never read while its inputs change (R101). -/
theorem State.event_ne_unsteadyRead {s : State} (hl : 0 < s.latency) : s.event ≠ .ok .unsteadyRead := by
  rw [State.event_of_slots hl]
  exact s.pins.edgeEvent_ne_unsteadyRead

theorem State.entering_ne_unsteady {s : State} {e : Event} (he : e ≠ .unsteadyRead) (w : ResponseWord) :
    s.entering e ≠ some (.unsteady w) := by
  cases e with
  | unsteadyRead => exact absurd rfl he
  | reset | idle | request i => simp [State.entering]

theorem State.NoUnsteadySlot.advance {s : State} {y : Option Reply} (hs : s.NoUnsteadySlot)
    (hy : ∀ w, y ≠ some (.unsteady w)) : (s.advance y).NoUnsteadySlot := by
  intro w hw
  rcases State.mem_inflight_advance hw with h | h
  · exact hy w h.symm
  · exact hs w h

theorem State.noUnsteadySlot_of_unspecifiedSlots {s : State} {tick latency : Nat}
    (h : s.inflight = unspecifiedSlots tick latency) : s.NoUnsteadySlot := by
  intro w hw
  obtain ⟨v, hv⟩ := mem_unspecifiedSlots (h ▸ hw)
  cases hv

theorem State.noUnsteadySlot_of_clear {s : State} {n : Nat} (h : s.inflight = List.replicate n none) :
    s.NoUnsteadySlot := by
  simp [State.NoUnsteadySlot, h]

theorem State.NoUnsteadySlot.nextCycle {s : State} (hs : s.NoUnsteadySlot) : s.nextCycle.NoUnsteadySlot := by
  cases hw : s.awaitsReset with
  | true => exact State.noUnsteadySlot_of_unspecifiedSlots (State.nextCycle_inflight s |>.trans (if_pos hw))
  | false =>
    intro w
    rw [(State.nextCycle_of_booted (.inr hw)).1]
    exact hs w

end Sys2Proof.Machine

namespace Sys2Proof

open Sys2Proof.Machine

/-- Settles O56: without slots there is nothing to hold; with slots no such read enters, and neither a reset edge nor the
next cycle brings one. -/
theorem unsteadyRepliesAreNeverInFlight : Obligations.UnsteadyRepliesAreNeverInFlight := by
  refine ⟨fun s t hs hstep => ?_, fun mode latency =>
    ⟨State.noUnsteadySlot_of_clear rfl, State.noUnsteadySlot_of_unspecifiedSlots rfl⟩⟩
  rcases s.latency.eq_zero_or_pos with hl | hl
  · exact State.noUnsteadySlot_of_no_slots ((latency_of_step hstep).trans hl)
  · obtain ⟨e, he⟩ := event_of_step hstep
    by_cases hr : e = .reset
    · subst hr
      rw [step_eq_resetEdge hstep he]
      exact State.noUnsteadySlot_of_clear s.nextCycle_resetEdge_inflight
    · rw [step_eq_advance hstep he hr]
      have hsteady : e ≠ .unsteadyRead := fun h => State.event_ne_unsteadyRead hl (h ▸ he)
      exact (hs.advance (State.entering_ne_unsteady hsteady)).nextCycle

/-- Settles O41: the read is an unsteady one, and with no slots the free word is delivered at once. -/
theorem unsteadyReadIsUnspecified : Obligations.UnsteadyReadIsUnspecified := by
  intro s i hl hi hr
  have hslots := State.inflight_of_no_slots hl
  have hnext := State.nextCycle_of_booted (s := s.readUnsteady) (.inl (s.latency_readUnsteady.trans hl))
  have hadvance := State.advance_of_inflight_nil hslots (some (.unsteady (Config.freeWord s.tick)))
  refine ⟨s.readUnsteady.nextCycle, ?_, hadvance.2, rfl, ?_, hnext.2, rfl⟩
  · simp [step, State.event_of_changing hl hi hr]
  · rw [hnext.1, hslots]
    exact hadvance.1

end Sys2Proof
end

section
/-! SUPPORT. Proof of the statement on the end of a run (spec/70_reset_and_hazards.md R99, R100). Of an ended run each
part is followed through a step: the host's script, the requests in flight, what was discarded, and what was given. -/

namespace Sys2Proof.Machine

/-! ### The host -/

theorem Pins.asksNothing_iff (latency : Nat) (p : Pins) :
    p.asksNothing latency = true ↔ p.event latency = .ok .reset ∨ p.event latency = .ok .idle := by
  unfold Pins.asksNothing
  cases p.event latency with
  | error f => simp
  | ok e => cases e <;> simp [Event.asksNothing]

/-- After its script the host asks nothing, whatever its signals were (log 9). -/
theorem Pins.asksNothing_rest (latency : Nat) (p : Pins) : p.rest.asksNothing latency = true := by
  rw [Pins.asksNothing_iff]
  rcases latency.eq_zero_or_pos with hl | hl
  · simp [Pins.event, hl, Pins.readEvent, Pins.rest]
  · simp [Pins.event, hl.ne', Pins.edgeEvent, Pins.rest]

theorem State.event_of_hostDone {s : State} (h : s.hostDone = true) : s.event = .ok .reset ∨ s.event = .ok .idle := by
  rw [State.hostDone, List.all_cons, Bool.and_eq_true] at h
  exact (Pins.asksNothing_iff s.latency s.pins).mp h.1

/-- At every step the host drives what its script says next, or else rests (R99; log 9). -/
theorem signals_of_step {s t : State} (h : step s = .next t) :
    t.pins = s.script.headD s.pins.rest ∧ t.script = s.script.tail := by
  rcases step_cases h with ⟨-, rfl⟩ | ⟨-, rfl⟩ | ⟨-, rfl⟩ | ⟨i, -, rfl⟩ <;> exact ⟨rfl, rfl⟩

/-- A host that asks nothing more goes on asking nothing. -/
theorem hostDone_of_step {s t : State} (hs : s.hostDone = true) (h : step s = .next t) : t.hostDone = true := by
  obtain ⟨hpins, hscript⟩ := signals_of_step h
  rw [State.hostDone, List.all_cons, Bool.and_eq_true] at hs
  rw [State.hostDone, latency_of_step h, hpins, hscript]
  cases hq : s.script with
  | nil => simp [Pins.asksNothing_rest]
  | cons p ps => simpa [hq] using hs.2

/-! ### The requests in flight -/

theorem State.ended_iff {s : State} : s.ended = true ↔ s.hostDone = true ∧ s.pending = [] := by
  simp [State.ended]

theorem State.not_ended_of_event {s : State} {e : Event} (he : s.event = .ok e) (h : e.asksNothing = false) :
    s.ended = false := by
  refine Bool.eq_false_iff.mpr fun hend => ?_
  rcases State.event_of_hostDone (State.ended_iff.mp hend).1 with h' | h' <;>
    obtain rfl := Except.ok.inj (he.symm.trans h') <;> cases h

theorem State.not_ended_of_pending {s : State} {i : Instr} (h : i ∈ s.pending) : s.ended = false := by
  refine Bool.eq_false_iff.mpr fun hend => ?_
  rw [(State.ended_iff.mp hend).2] at h
  cases h

/-- Where nothing is pending, an idle edge leaves nothing pending. -/
theorem State.pending_advance_none {s : State} (h : s.pending = []) : (s.advance none).pending = [] := by
  rw [State.pending_eq_nil_iff] at h ⊢
  intro x hx
  rcases State.mem_inflight_advance hx with rfl | hx
  · rfl
  · exact h x hx

/-- Where nothing is pending, the next cycle brings nothing and, before the first reset, loses nothing (R31). -/
theorem State.nextCycle_of_pending_nil {s : State} (h : s.pending = []) :
    s.nextCycle.pending = [] ∧ s.nextCycle.discarded = s.discarded := by
  cases hw : s.awaitsReset with
  | true =>
    refine ⟨State.pending_of_unspecifiedSlots (s.nextCycle_inflight.trans (if_pos hw)), ?_⟩
    rw [State.nextCycle_discarded, if_pos hw]
    exact (congrArg (s.discarded ++ ·) h).trans (List.append_nil _)
  | false =>
    obtain ⟨hslots, hlost⟩ := State.nextCycle_of_booted (.inr hw)
    exact ⟨by rw [State.pending, hslots]; exact h, hlost⟩

/-- A step on which the host asks nothing, with nothing pending, leaves nothing pending and discards nothing. -/
theorem pending_discarded_of_step {s t : State} (hs : s.hostDone = true) (hp : s.pending = [])
    (h : step s = .next t) : t.pending = [] ∧ t.discarded = s.discarded := by
  rcases State.event_of_hostDone hs with he | he
  · obtain rfl := step_eq_resetEdge h he
    obtain ⟨hpending, hdiscarded⟩ :=
      State.nextCycle_of_pending_nil (s := s.resetEdge) (State.pending_eq_nil_iff.mpr (by simp [slotRequest]))
    exact ⟨hpending, hdiscarded.trans (State.resetEdge_discarded_of_pending_nil hp)⟩
  · obtain rfl := step_eq_advance h he (by simp)
    exact State.nextCycle_of_pending_nil (State.pending_advance_none hp)

/-! ### What the host is given -/

/-- A reply that answers no request and was not read of changing inputs spoils no run. -/
theorem Reply.spoils_of_no_request {x : Reply} (h : slotRequest (some x) = none) (hx : ∀ w, x ≠ .unsteady w) :
    x.spoils = false := by
  cases x with
  | answer i r => cases h
  | leftover w => rfl
  | unsteady w => exact absurd rfl (hx w)

/-- What an ended run still delivers are leftovers at most, which spoil nothing (R31, R100). -/
theorem received_of_ended_step {s t : State} (hs : s.NoUnsteadySlot) (hd : s.hostDone = true) (hp : s.pending = [])
    (h : step s = .next t) : ∃ l, t.received = s.received ++ l ∧ ∀ x ∈ l, x.spoils = false := by
  have hgiven : t.received = s.received ++ (s.inflight.getLastD none).toList := by
    rcases State.event_of_hostDone hd with he | he <;> exact received_of_step h he
  refine ⟨_, hgiven, fun x hx => ?_⟩
  have hmem : some x ∈ s.inflight := by
    have hlast := List.getLastD_mem_cons (l := s.inflight) (a := none)
    rw [Option.mem_toList.mp hx] at hlast
    simpa using hlast
  exact Reply.spoils_of_no_request (State.pending_eq_nil_iff.mp hp _ hmem) fun w hw => hs w (hw ▸ hmem)

/-- An ended run goes on, stays ended, and is judged as before (R100). -/
theorem step_of_ended {s : State} (hs : s.NoUnsteadySlot) (hend : s.ended = true) :
    ∃ t, step s = .next t ∧ t.ended = true ∧ t.endsWell = s.endsWell := by
  obtain ⟨hd, hp⟩ := State.ended_iff.mp hend
  obtain ⟨t, ht⟩ : ∃ t, step s = .next t := by
    rcases State.event_of_hostDone hd with he | he <;> exact step_next_of_event he
  obtain ⟨hpending, hdiscarded⟩ := pending_discarded_of_step hd hp ht
  obtain ⟨l, hl, hspoils⟩ := received_of_ended_step hs hd hp ht
  have hendt : t.ended = true := State.ended_iff.mpr ⟨hostDone_of_step hd ht, hpending⟩
  have hnew : (l.all fun r => !r.spoils) = true := by simpa using hspoils
  refine ⟨t, ht, hendt, ?_⟩
  rw [State.endsWell, State.endsWell, hendt, hend, hdiscarded, hl, List.all_append, hnew, Bool.and_true]

/-- What was given stays given (R86, R99). -/
theorem mem_received_of_step {s t : State} {x : Reply} (hx : x ∈ s.received) (h : step s = .next t) :
    x ∈ t.received := by
  obtain ⟨e, he⟩ := event_of_step h
  rw [received_of_step h he]
  exact List.mem_append_left _ hx

theorem State.not_endsWell_of_spoils {s : State} {x : Reply} (hx : x ∈ s.received) (h : x.spoils = true) :
    s.endsWell = false := by
  have hall : (s.received.all fun r => !r.spoils) = false := List.all_eq_false.mpr ⟨x, hx, by simp [h]⟩
  rw [State.endsWell, hall, Bool.and_false]

end Sys2Proof.Machine

namespace Sys2Proof

open Sys2Proof.Machine

/-- Settles O57: a request now or in flight, or an unsteady read, contradicts the end of a run; an ended run is followed
through a step by `step_of_ended`; and a fault response stays in what was given. -/
theorem endedRunStaysEnded : Obligations.EndedRunStaysEnded := by
  refine ⟨fun s i h => ?_, fun s he => State.not_ended_of_event he rfl, fun s => step_of_ended,
    fun s t i c hfault hstep => ?_⟩
  · obtain he | hi := h
    · exact State.not_ended_of_event he rfl
    · exact State.not_ended_of_pending hi
  · have hgiven := mem_received_of_step hfault hstep
    exact ⟨hgiven, State.not_endsWell_of_spoils hgiven rfl⟩

end Sys2Proof
end

section
/-! SUPPORT. The host-side conversion from binary64 (spec/00_scope.md R17; D20): the fraction `fromFloat` works on is
`x * 65536`, its range check is a check of that value, and its quotient is that value rounded toward zero. The layout of
binary64 is the model's (log 16). -/

namespace Sys2Proof.Machine

/-- `x * 65536` over the rationals, for a finite `x`: the raw value before it is rounded (R17; log 16). -/
def Binary64.scaledValue (x : Binary64) : ℚ := (x.significand : ℚ) * 2 ^ ((x.scale : ℤ) - 1075) * 65536

theorem Binary64.scaledDenominator_pos (x : Binary64) : 0 < x.scaledDenominator := pow_pos (by decide) _

/-- One of the two exponents is 0, and together they are the power of two of `x * 65536`. -/
theorem Binary64.scaledNumerator_div_scaledDenominator (x : Binary64) :
    (x.scaledNumerator : ℚ) / x.scaledDenominator = x.scaledValue := by
  have hexponent : (x.scale : ℤ) - 1075 + 16 = ((x.scale - 1059 : ℕ) : ℤ) - ((1059 - x.scale : ℕ) : ℤ) := by omega
  have hpower : (2 : ℚ) ^ ((x.scale : ℤ) - 1075) * 2 ^ (16 : ℤ) = 2 ^ (x.scale - 1059) / 2 ^ (1059 - x.scale) := by
    rw [← zpow_add₀ (by norm_num), hexponent, zpow_sub₀ (by norm_num), zpow_natCast, zpow_natCast]
  have hscale : (65536 : ℚ) = 2 ^ (16 : ℤ) := by norm_num
  rw [scaledValue, hscale, mul_assoc, hpower, scaledNumerator, scaledDenominator]
  push_cast
  exact mul_div_assoc _ _ _

/-- The range check, which `fromFloat` does on integers, is one of `x * 65536` (D20). -/
theorem Binary64.scaledNumerator_in_range_iff (x : Binary64) :
    (int32Min * x.scaledDenominator ≤ x.scaledNumerator ∧ x.scaledNumerator ≤ int32Max * x.scaledDenominator) ↔
      (int32Min : ℚ) ≤ x.scaledValue ∧ x.scaledValue ≤ (int32Max : ℚ) := by
  have hpos : (0 : ℚ) < x.scaledDenominator := Int.cast_pos.mpr x.scaledDenominator_pos
  rw [← scaledNumerator_div_scaledDenominator, le_div_iff₀ hpos, div_le_iff₀ hpos]
  norm_cast

/-- The quotient rounded toward zero, as a ceiling or a floor by its sign. -/
theorem tdiv_eq_ceil_or_floor (n : Int) {d : Int} (hd : d ≠ 0) :
    Int.tdiv n d = if (n : ℚ) / d < 0 then ⌈(n : ℚ) / d⌉ else ⌊(n : ℚ) / d⌋ := by
  obtain ⟨hclose, hside⟩ := tdiv_precision n hd
  rw [abs_lt] at hclose
  split
  case isTrue hneg =>
    refine (Int.ceil_eq_iff.mpr ⟨by linarith, ?_⟩).symm
    rcases hside with ⟨hlo, hhi⟩ | ⟨hlo, -⟩ <;> linarith
  case isFalse hnonneg =>
    refine (Int.floor_eq_iff.mpr ⟨?_, by linarith⟩).symm
    rcases hside with ⟨-, hhi⟩ | ⟨-, hhi⟩ <;> linarith

/-- Rounding toward zero does not leave an interval of integers that holds 0. -/
theorem tdiv_mem_of_div_mem {n d lo hi : Int} (hd : d ≠ 0) (hlo : lo ≤ 0) (hhi : 0 ≤ hi)
    (h : (lo : ℚ) ≤ n / d ∧ (n : ℚ) / d ≤ hi) : lo ≤ Int.tdiv n d ∧ Int.tdiv n d ≤ hi := by
  rcases (tdiv_precision n hd).2 with ⟨hq, hq'⟩ | ⟨hq, hq'⟩
  · exact ⟨hlo.trans (mod_cast hq), mod_cast hq'.trans h.2⟩
  · exact ⟨mod_cast h.1.trans hq, le_trans (mod_cast hq') hhi⟩

theorem fromFloat_of_not_finite {x : Binary64} (h : x.isFinite = false) : fromFloat x = .error .notFinite :=
  if_neg (by simp [h])

theorem fromFloat_of_outside {x : Binary64} (hfin : x.isFinite = true)
    (h : x.scaledValue < (int32Min : ℚ) ∨ (int32Max : ℚ) < x.scaledValue) :
    fromFloat x = .error .outsideRawRange := by
  rw [fromFloat, if_pos hfin, if_neg]
  rw [x.scaledNumerator_in_range_iff, not_and_or, not_le, not_le]
  exact h

theorem fromFloat_of_in_range {x : Binary64} (hfin : x.isFinite = true)
    (h : (int32Min : ℚ) ≤ x.scaledValue ∧ x.scaledValue ≤ (int32Max : ℚ)) :
    ∃ r, fromFloat x = .ok r ∧
      r.toInt = if x.scaledValue < 0 then ⌈x.scaledValue⌉ else ⌊x.scaledValue⌋ := by
  have hd := x.scaledDenominator_pos.ne'
  refine ⟨_, by rw [fromFloat, if_pos hfin, if_pos (x.scaledNumerator_in_range_iff.mpr h)], ?_⟩
  rw [← x.scaledNumerator_div_scaledDenominator] at h ⊢
  rw [toInt_ofInt_of_fitsRaw ((Laws.WellFormed.fitsRaw_iff _).mpr (tdiv_mem_of_div_mem hd (by decide) (by decide) h))]
  exact tdiv_eq_ceil_or_floor _ hd

end Sys2Proof.Machine

namespace Sys2Proof

open Sys2Proof.Machine

/-- Settles O50: each clause is one of the three outcomes of `fromFloat`, stated of `x * 65536`. -/
theorem fromFloatTruncatesTowardZero : Obligations.FromFloatTruncatesTowardZero := fun _ =>
  ⟨fromFloat_of_not_finite, fun hfin => ⟨fromFloat_of_in_range hfin, fromFloat_of_outside hfin⟩⟩

end Sys2Proof
end

section
/-! SUPPORT. The host-side conversion to binary64 (spec/00_scope.md R18): the fields of a binary64 pattern laid out by
parts, and those of `toFloat v`, whose value is exactly `v / 65536`. The layout of binary64 is the model's (log 16). -/

namespace Sys2Proof.Machine

/-! ### A pattern laid out by its parts -/

theorem exponentField_append (s : BitVec 1) (e : BitVec 11) (f : BitVec 52) :
    Binary64.exponentField (s ++ e ++ f) = e.toNat := by
  have hfield : (s ++ e ++ f).extractLsb' 52 11 = e :=
    (BitVec.extractLsb'_append_eq_of_le (by rfl)).trans BitVec.extractLsb'_append_eq_right
  exact congrArg BitVec.toNat hfield

theorem fractionField_append (s : BitVec 1) (e : BitVec 11) (f : BitVec 52) :
    Binary64.fractionField (s ++ e ++ f) = f.toNat :=
  congrArg BitVec.toNat BitVec.extractLsb'_append_eq_right

theorem signField_append (s : BitVec 1) (e : BitVec 11) (f : BitVec 52) :
    (s ++ e ++ f).extractLsb' 63 1 = s := by
  rw [BitVec.append_assoc]
  exact BitVec.extractLsb'_append_eq_left

/-- A normal value has the hidden bit. -/
theorem significand_append {e : BitVec 11} (he : e.toNat ≠ 0) (s : BitVec 1) (f : BitVec 52) :
    Binary64.significand (s ++ e ++ f) =
      if s = 1#1 then -((f.toNat + 2 ^ 52 : ℕ) : Int) else ((f.toNat + 2 ^ 52 : ℕ) : Int) := by
  rw [Binary64.significand, exponentField_append, fractionField_append, if_neg he]
  exact if_congr (by rw [signField_append]) rfl rfl

/-! ### The pattern of a raw value -/

theorem toFloat_of_ne_zero {v : Word} (h : v.toInt ≠ 0) :
    toFloat v = v.extractLsb' 31 1 ++ BitVec.ofNat 11 (v.toInt.natAbs.log2 + 1007) ++
      BitVec.ofNat 52 (v.toInt.natAbs * 2 ^ (52 - v.toInt.natAbs.log2)) :=
  if_neg (Int.natAbs_ne_zero.mpr h)

/-- The magnitude of a raw value has its leading bit at 31 or below. -/
theorem log2_natAbs_toInt_lt {v : Word} (h : v.toInt ≠ 0) : v.toInt.natAbs.log2 < 32 := by
  obtain ⟨hmin, hmax⟩ := toInt_word_bounds v
  exact (Nat.log2_lt (Int.natAbs_ne_zero.mpr h)).mpr (by omega)

/-- Shifted up until its leading bit is the hidden one, a number is its own low 52 bits and the hidden bit. -/
theorem normalized_mod_add_hidden_bit {n : Nat} (hn : n ≠ 0) (hk : n.log2 ≤ 52) :
    n * 2 ^ (52 - n.log2) % 2 ^ 52 + 2 ^ 52 = n * 2 ^ (52 - n.log2) := by
  have hlo : 2 ^ n.log2 * 2 ^ (52 - n.log2) ≤ n * 2 ^ (52 - n.log2) := Nat.mul_le_mul_right _ (Nat.log2_self_le hn)
  have hhi : n * 2 ^ (52 - n.log2) < 2 ^ (n.log2 + 1) * 2 ^ (52 - n.log2) :=
    Nat.mul_lt_mul_of_pos_right Nat.lt_log2_self (Nat.two_pow_pos _)
  rw [← pow_add, show n.log2 + (52 - n.log2) = 52 by omega] at hlo
  rw [← pow_add, show n.log2 + 1 + (52 - n.log2) = 53 by omega] at hhi
  omega

theorem exponentField_toFloat {v : Word} (h : v.toInt ≠ 0) :
    (toFloat v).exponentField = v.toInt.natAbs.log2 + 1007 := by
  have hk := log2_natAbs_toInt_lt h
  rw [toFloat_of_ne_zero h, exponentField_append, BitVec.toNat_ofNat]
  omega

/-- The top bit of a raw value is its sign (R4). -/
theorem topBit_eq_one_iff (v : Word) : v.extractLsb' 31 1 = 1#1 ↔ v.toInt < 0 := by
  have hbit : v.extractLsb' 31 1 = BitVec.ofBool v.msb := by
    ext i hi
    simp [BitVec.msb_eq_getLsbD_last, show i = 0 by omega]
  rw [hbit, BitVec.msb_eq_toInt]
  by_cases h : v.toInt < 0 <;> simp [h]

theorem significand_toFloat {v : Word} (h : v.toInt ≠ 0) :
    (toFloat v).significand = v.toInt * 2 ^ (52 - v.toInt.natAbs.log2) := by
  have hk := log2_natAbs_toInt_lt h
  have he : (BitVec.ofNat 11 (v.toInt.natAbs.log2 + 1007)).toNat ≠ 0 := by
    rw [BitVec.toNat_ofNat]
    omega
  rw [toFloat_of_ne_zero h, significand_append he, BitVec.toNat_ofNat,
    normalized_mod_add_hidden_bit (Int.natAbs_ne_zero.mpr h) (by omega)]
  simp only [topBit_eq_one_iff]
  push_cast
  split
  case isTrue hneg => rw [abs_of_neg hneg, neg_mul, neg_neg]
  case isFalse hpos => rw [abs_of_nonneg (not_lt.mp hpos)]

theorem isFinite_toFloat (v : Word) : (toFloat v).isFinite = true := by
  by_cases h : v.toInt = 0
  · obtain rfl : v = 0#32 := BitVec.eq_of_toInt_eq h
    rfl
  · have hk := log2_natAbs_toInt_lt h
    rw [Binary64.isFinite, decide_eq_true_iff, exponentField_toFloat h]
    omega

/-- Nothing is lost: 53 bits of significand hold the 32 of a raw value (R18). -/
theorem scaledValue_toFloat (v : Word) : (toFloat v).scaledValue = v.toInt := by
  by_cases h : v.toInt = 0
  · obtain rfl : v = 0#32 := BitVec.eq_of_toInt_eq h
    have hzero : (toFloat 0#32).significand = 0 := rfl
    simp [Binary64.scaledValue, hzero]
  · have hk := log2_natAbs_toInt_lt h
    have hscale : (toFloat v).scale = v.toInt.natAbs.log2 + 1007 := by
      rw [Binary64.scale, exponentField_toFloat h]
      omega
    have hexponent : ((52 - v.toInt.natAbs.log2 : ℕ) : ℤ) + (((toFloat v).scale : ℤ) - 1075) = -16 := by omega
    have hpower : (2 : ℚ) ^ (52 - v.toInt.natAbs.log2) * 2 ^ (((toFloat v).scale : ℤ) - 1075) = 65536⁻¹ := by
      rw [← zpow_natCast, ← zpow_add₀ (by norm_num), hexponent]
      norm_num
    rw [Binary64.scaledValue, significand_toFloat h]
    push_cast
    rw [mul_assoc (v.toInt : ℚ), hpower, inv_mul_cancel_right₀ (by norm_num)]

/-- The value of a pattern that stands for a raw value is that raw value (R17, R18). -/
theorem fromFloat_of_scaledValue_eq {x : Binary64} {v : Word} (hfin : x.isFinite = true)
    (h : x.scaledValue = v.toInt) : fromFloat x = .ok v := by
  obtain ⟨hmin, hmax⟩ := toInt_word_bounds v
  obtain ⟨r, hr, hvalue⟩ := fromFloat_of_in_range hfin (by rw [h]; exact ⟨mod_cast hmin, mod_cast hmax⟩)
  rw [h, Int.ceil_intCast, Int.floor_intCast, ite_self] at hvalue
  rw [hr, BitVec.eq_of_toInt_eq hvalue]

end Sys2Proof.Machine

namespace Sys2Proof

open Sys2Proof.Machine

/-- Settles O51: `toFloat v`, times 65536, is the integer `v`, which `fromFloat` keeps. -/
theorem toFloatIsExactAndRoundTrips : Obligations.ToFloatIsExactAndRoundTrips := fun v =>
  ⟨isFinite_toFloat v, eq_div_of_mul_eq (by norm_num) (scaledValue_toFloat v),
    fromFloat_of_scaledValue_eq (isFinite_toFloat v) (scaledValue_toFloat v)⟩

end Sys2Proof
end
